-- ==== Sys2Proof/Word.lean ====
section
/-! DEFINITION. The word formats of the block and its three enumerations (30_encoding.md R55 to R58): types only;
the codes and the field positions stand in Decode.lean. -/

namespace Sys2Proof

/-- The select vector `sel[6:0]` = rst, mode, cnt_z, at_floor, tu, zc_pend, zc_hit (R61). -/
abbrev SelWord := BitVec 7

/-- The throttle neighbour's request vector, inc in bit 1 and dec in bit 0 (R133). -/
abbrev ThrReq := BitVec 2

/-- One word of the commutation ROM (R60). -/
abbrev RomWord := BitVec 7

/-- The six gate-select signals UH, UL, VH, VL, WH, WL, bit 5 down to bit 0 (R59). -/
abbrev GateWord := BitVec 6

/-- What stands for an instruction word: the select vector of a clock edge of CORE, or the request vector of one
call of the throttle neighbour. The two formats travel on different wires, so they are two constructors. -/
inductive Word where
  | sel (v : SelWord)
  | thr (v : ThrReq)
deriving DecidableEq, Repr

/-- The three motor phases (R13, R56). -/
inductive Phase where
  | U | V | W
deriving DecidableEq, Repr, Inhabited

/-- The expected edge polarity of a comparator (R13, R57). -/
inductive Polarity where
  | falling | rising
deriving DecidableEq, Repr, Inhabited

/-- MotorMode (R21, R58): time-triggered or event-triggered step advance. -/
inductive MotorMode where
  | starting | running
deriving DecidableEq, Repr, Inhabited

end Sys2Proof
end

