-- ==== Sys2Proof/Config.lean ====
section
/-! DEFINITION. The elaboration-time parameters of the block (00_scope.md R6, R8), their reference values, the input
pins, and the one free value: the inputs the environment chooses where no stimulus is listed. -/

namespace Sys2Proof

/-- A CommutationEntry (R75): the DrivePattern (hi, lo) of R76 and the SenseConfig (flt, pol) of R77. -/
structure CommutationEntry where
  hi : Phase
  lo : Phase
  flt : Phase
  pol : Polarity
deriving DecidableEq, Repr, Inhabited

/-- The contents of the commutation ROM: one entry for each of the addresses 0 to 5 (R40, R75). -/
abbrev Table := Vector CommutationEntry 6

/-- The configuration record CFG (R6) with the neighbour's parameters (R8). Fixed for the life of a model instance. -/
structure Cfg where
  /-- `TABLE`, the commutation ROM. -/
  table : Table
  /-- `DELAY_INIT`, the initial startup delay in time units. -/
  delayInit : Nat
  /-- `DELAY_DEC`, the decrement per forced step. -/
  delayDec : Nat
  /-- `DELAY_FLOOR`, at or below which the ramp completes. -/
  delayFloor : Nat
  /-- `DW`, the width of `dly` and `cnt` in bits. -/
  dw : Nat
  /-- `STEP_RESET`, the step after reset. -/
  stepReset : Nat
  /-- `MIN_DUTY` of the throttle neighbour (R8). -/
  minDuty : Int
  /-- `MAX_DUTY` of the throttle neighbour (R8). -/
  maxDuty : Int
  /-- `DUTY_RESET` of the throttle neighbour (R8). -/
  dutyReset : Int
deriving DecidableEq, Repr

/-- `TABLE_REF` (R84). PRESUMED: the spec itself marks these contents as general knowledge (K1); log 2. -/
def tableRef : Table :=
  #v[⟨.U, .V, .W, .falling⟩, ⟨.U, .W, .V, .rising⟩, ⟨.V, .W, .U, .falling⟩,
     ⟨.V, .U, .W, .rising⟩, ⟨.W, .U, .V, .falling⟩, ⟨.W, .V, .U, .rising⟩]

/-- `CFG_REF` with `TABLE_REF`, DW = 16 and STEP_RESET = 5 (R6). DESIGN CHOICE: reset starts in this configuration
(log 2); the duty bounds 0 and 3 are those of the spec's test vectors (log 3). -/
def Cfg.reference : Cfg where
  table := tableRef
  delayInit := 5000
  delayDec := 20
  delayFloor := 100
  dw := 16
  stepReset := 5
  minDuty := 0
  maxDuty := 3
  dutyReset := 0

/-- The input ports sampled at one rising clock edge (R31 to R33): reset, time-unit strobe, comparator levels. -/
structure Pins where
  rst : Bool
  tu : Bool
  cmpU : Bool
  cmpV : Bool
  cmpW : Bool
deriving DecidableEq, Repr, Inhabited

/-- The inputs of the n-th clock edge for which no stimulus is listed: a FREE VALUE ("Inputs are oracle-like free draws
per clock edge", R15). No body: nothing can be proved of it (log 4). -/
opaque Config.freePins : Nat → Pins

end Sys2Proof
end

