-- ==== Sys2Proof/Syntax.lean ====
section
/-! DEFINITION. The operations of the block: one constructor per row of spec/opcode_table.json. The operations have no
immediate fields (30_encoding.md R67), so no constructor takes an argument. -/

namespace Sys2Proof

/-- The eight clocked operations of CORE (R62) and the three request codes of the throttle neighbour (R133). -/
inductive Instr where
  /-- RESET (R165). -/
  | reset
  /-- HOLD (R92). -/
  | hold
  /-- WAIT (R93). -/
  | wait
  /-- FSTEP (R94). -/
  | fstep
  /-- FSTEP_LAST (R95). -/
  | fstepLast
  /-- RUN_IDLE (R115). -/
  | runIdle
  /-- ZCDET (R113). -/
  | zcdet
  /-- ZCADV (R114). -/
  | zcadv
  /-- THR_INC (R131). -/
  | thrInc
  /-- THR_DEC (R132). -/
  | thrDec
  /-- THR_NONE (R133). -/
  | thrNone
deriving DecidableEq, Repr

end Sys2Proof
end

