-- ==== Sys2Proof/Decode.lean ====
section
/-! DEFINITION. Every encoding of the block (30_encoding.md): the codes of the enumerations, the ROM word, the gate vector,
the select vector, the operation map and the neighbour's request codes; the decoder, then the encoder. -/

namespace Sys2Proof

/-! ## Codes of the enumerations -/

/-- Phase code (R56): U = 0, V = 1, W = 2. -/
def phaseCode : Phase → BitVec 2
  | .U => 0b00#2
  | .V => 0b01#2
  | .W => 0b10#2

/-- The phase of a code; the code 0b11 is reserved (R56). -/
def phaseOfCode (c : BitVec 2) : Option Phase :=
  if c = 0b00#2 then some .U
  else if c = 0b01#2 then some .V
  else if c = 0b10#2 then some .W
  else none

/-- Polarity code (R57): falling = 0, rising = 1. -/
def polarityCode : Polarity → BitVec 1
  | .falling => 0#1
  | .rising => 1#1

/-- The polarity of a code (R57). -/
def polarityOfCode (c : BitVec 1) : Polarity :=
  if c = 1#1 then .rising else .falling

/-- Mode code (R58): Starting = 0, Running = 1. -/
def modeCode : MotorMode → BitVec 1
  | .starting => 0#1
  | .running => 1#1

/-- The mode of a code (R58). -/
def modeOfCode (c : BitVec 1) : MotorMode :=
  if c = 1#1 then .running else .starting

/-! ## ROM word -/

/-- `Encode7(hi, lo, flt, pol)` = hi, lo, flt, pol concatenated, hi in bits 6:5 (R60). -/
def encode7 (e : CommutationEntry) : RomWord :=
  phaseCode e.hi ++ phaseCode e.lo ++ phaseCode e.flt ++ polarityCode e.pol

/-- `Decode7(w)` (R60): the fields w[6:5], w[4:3], w[2:1], w[0]; no entry where a phase field holds the reserved code
(R65). -/
def decode7 (w : RomWord) : Option CommutationEntry :=
  match phaseOfCode (w.extractLsb' 5 2), phaseOfCode (w.extractLsb' 3 2), phaseOfCode (w.extractLsb' 1 2) with
  | some hi, some lo, some flt => some ⟨hi, lo, flt, polarityOfCode (w.extractLsb' 0 1)⟩
  | _, _, _ => none

/-! ## Gate vector -/

/-- `GateDecode(hi, lo)` (R59): exactly the bits 5 - 2*code(hi) and 4 - 2*code(lo) set. -/
def gateDecode (hi lo : Phase) : GateWord :=
  (1#6 <<< (5 - 2 * (phaseCode hi).toNat)) ||| (1#6 <<< (4 - 2 * (phaseCode lo).toNat))

/-! ## Select vector -/

/-- The select vector from its seven condition bits, rst the most significant (R61). -/
def selOf (rst mode cntZ atFloor tu zcPend zcHit : Bool) : SelWord :=
  BitVec.ofBool rst ++ BitVec.ofBool mode ++ BitVec.ofBool cntZ ++ BitVec.ofBool atFloor ++
    BitVec.ofBool tu ++ BitVec.ofBool zcPend ++ BitVec.ofBool zcHit

/-! ## Operation map -/

/-- One row of the operation map: selected when (sel & mask) = value (R62). -/
structure SelRow where
  op : Instr
  mask : SelWord
  value : SelWord
deriving DecidableEq, Repr

/-- One row of the neighbour's request codes, every bit of which is fixed (R133). -/
structure ThrRow where
  op : Instr
  value : ThrReq
deriving DecidableEq, Repr

/-- The operation map of R62, row by row in the spec's order. -/
def selRows : List SelRow :=
  [⟨.reset, 0x40#7, 0x40#7⟩, ⟨.hold, 0x74#7, 0x00#7⟩, ⟨.wait, 0x74#7, 0x04#7⟩, ⟨.fstep, 0x78#7, 0x10#7⟩,
   ⟨.fstepLast, 0x78#7, 0x18#7⟩, ⟨.runIdle, 0x63#7, 0x20#7⟩, ⟨.zcdet, 0x63#7, 0x21#7⟩, ⟨.zcadv, 0x62#7, 0x22#7⟩]

/-- The request codes of R133; 0b11 is reserved and has no row. -/
def thrRows : List ThrRow :=
  [⟨.thrInc, 0b10#2⟩, ⟨.thrDec, 0b01#2⟩, ⟨.thrNone, 0b00#2⟩]

/-- Why a word is no operation. -/
inductive Reject where
  /-- No row of the operation map selects the select vector. R63: this never happens. -/
  | noSelectRow
  /-- The request vector 0b11, which R133 reserves and a model refuses. -/
  | reservedThrottleRequest
deriving DecidableEq, Repr

/-- What the decoder answers: an operation, or a rejection by name. -/
inductive Decoded where
  | op (i : Instr)
  | rejected (r : Reject)
deriving DecidableEq, Repr

/-- The operation a word selects (R62 for a select vector, R133 for a request vector). Total. -/
def decode : Word → Decoded
  | .sel v =>
    match selRows.find? (fun r => v &&& r.mask == r.value) with
    | some r => .op r.op
    | none => .rejected .noSelectRow
  | .thr v =>
    match thrRows.find? (fun r => v == r.value) with
    | some r => .op r.op
    | none => .rejected .reservedThrottleRequest

/-- The encoder: the word of an operation with every don't-care bit 0 (R62, R133). -/
def encode : Instr → Word
  | .reset => .sel 0b1000000#7
  | .hold => .sel 0b0000000#7
  | .wait => .sel 0b0000100#7
  | .fstep => .sel 0b0010000#7
  | .fstepLast => .sel 0b0011000#7
  | .runIdle => .sel 0b0100000#7
  | .zcdet => .sel 0b0100001#7
  | .zcadv => .sel 0b0100010#7
  | .thrInc => .thr 0b10#2
  | .thrDec => .thr 0b01#2
  | .thrNone => .thr 0b00#2

/-! ## The opcode table's numbering -/

/-- The word a number of the opcode table stands for. The table's numbers do not say the format, and in a whole byte the
two overlap: the numbers 1 and 2 are the rows THR_DEC and THR_INC, and also select vectors that no reachable state
presents (R64). DESIGN CHOICE (log 8): in a byte those two are request vectors and every other number below 128 is a
select vector; a number given in 2 bits is a request vector, one given in 7 a select vector. -/
def tableWord (nbits w : Nat) : Option Word :=
  if nbits ≤ 2 then
    if w < 4 then some (.thr (BitVec.ofNat 2 w)) else none
  else if nbits ≠ 7 ∧ (w = 1 ∨ w = 2) then some (.thr (BitVec.ofNat 2 w))
  else if w < 128 then some (.sel (BitVec.ofNat 7 w))
  else none

/-- The instruction the decoder reads from a number of the opcode table. -/
def decodeTableWord (nbits w : Nat) : Option Instr :=
  match tableWord nbits w with
  | none => none
  | some v =>
    match decode v with
    | .op i => some i
    | .rejected _ => none

end Sys2Proof
end

