-- ==== Sys2Proof/Machine/Primitives.lean ====
section
/-! DEFINITION. The pseudocode primitives of 00_scope.md R11, each a total pure function. -/

namespace Sys2Proof.Machine

/-- `mod6(s) = s mod 6` (R11). -/
def mod6 (s : Nat) : Fin 6 := ⟨s % 6, Nat.mod_lt s (by decide)⟩

/-- `inc6(s) = (s + 1) mod 6` (R11, R119: the modulus is 6). -/
def inc6 (s : Nat) : Nat := (s + 1) % 6

/-- Truncated subtraction `tsub` (R11). -/
def tsub (a b : Nat) : Nat := if a ≥ b then a - b else 0

/-- `third(p, q)`, the phase different from both; it requires p ≠ q (R11), so equal phases have none. -/
def third : Phase → Phase → Option Phase
  | .U, .V => some .W
  | .V, .U => some .W
  | .U, .W => some .V
  | .W, .U => some .V
  | .V, .W => some .U
  | .W, .V => some .U
  | .U, .U => none
  | .V, .V => none
  | .W, .W => none

/-- `Edge(pol, prev, now)` (R11). -/
def edge : Polarity → Bool → Bool → Bool
  | .rising, prev, now => !prev && now
  | .falling, prev, now => prev && !now

/-- `MemRead(a, 1) = ROM[mod6(a)]` (R41): the word at address a encodes TABLE[a] (R40). -/
def memRead (c : Cfg) (a : Nat) : RomWord := encode7 c.table[mod6 a]

/-- `entry_for(s) = TABLE[mod6(s)]` (R80). -/
def entryFor (c : Cfg) (s : Nat) : CommutationEntry := c.table[mod6 s]

end Sys2Proof.Machine
end

