-- ==== Sys2Proof/Machine/Parameters.lean ====
section
/-! DEFINITION. Which parameters are admissible: `VALID(TABLE)` (40_commutation_table.md R82), the constraints on the
configuration (00_scope.md R7) and on the neighbour's parameters (R8). -/

namespace Sys2Proof.Machine

/-- V2 of R82: the two driven phases differ. (V1 holds by the type Phase; log 20.) -/
abbrev ValidPhasesDiffer (t : Table) : Prop := ∀ s : Fin 6, t[s].hi ≠ t[s].lo

/-- V3 of R82: the floating phase is the third one. -/
abbrev ValidFloating (t : Table) : Prop := ∀ s : Fin 6, third t[s].hi t[s].lo = some t[s].flt

/-- V4 of R82: the six ordered pairs are all different. -/
abbrev ValidAllDifferent (t : Table) : Prop :=
  ∀ s u : Fin 6, s ≠ u → (t[s].hi, t[s].lo) ≠ (t[u].hi, t[u].lo)

/-- V5 of R82: cyclically successive entries change exactly one of the two switches. -/
abbrev ValidRotation (t : Table) : Prop :=
  ∀ s : Fin 6,
    let a := t[s]
    let b := t[mod6 (inc6 s)]
    (a.hi = b.hi ∧ a.lo ≠ b.lo) ∨ (a.lo = b.lo ∧ a.hi ≠ b.hi)

/-- `VALID(TABLE)` (R82). -/
abbrev ValidTable (t : Table) : Prop :=
  ValidPhasesDiffer t ∧ ValidFloating t ∧ ValidAllDifferent t ∧ ValidRotation t

/-- An admissible configuration (R7). DW is positive by R6; DELAY_DEC < 2^DW is U8's "a value >= 2^DW" and the zext of
R67 (e) (DEDUCED, log 12). -/
abbrev Admissible (c : Cfg) : Prop :=
  ValidTable c.table ∧ 1 ≤ c.delayDec ∧ c.delayInit < 2 ^ c.dw ∧ c.delayDec < 2 ^ c.dw ∧
    c.delayFloor < 2 ^ c.dw ∧ 1 ≤ c.dw ∧ c.stepReset < 6

/-- The neighbour's parameters (R8): MIN_DUTY <= MAX_DUTY, and DUTY_RESET between them. -/
abbrev ThrottleAdmissible (c : Cfg) : Prop :=
  c.minDuty ≤ c.maxDuty ∧ c.minDuty ≤ c.dutyReset ∧ c.dutyReset ≤ c.maxDuty

/-- The build-time check of a ROM image (R65, R86): the table of six words, none where a word holds a reserved phase
code. -/
def tableOfRom (rom : Vector RomWord 6) : Option Table :=
  match decode7 rom[0], decode7 rom[1], decode7 rom[2], decode7 rom[3], decode7 rom[4], decode7 rom[5] with
  | some a, some b, some c, some d, some e, some f => some #v[a, b, c, d, e, f]
  | _, _, _, _, _, _ => none

/-- An admissible ROM word (R65): no reserved phase code, two different driven phases, the third one floating. -/
def romWordAdmissible (w : RomWord) : Bool :=
  match decode7 w with
  | none => false
  | some e => third e.hi e.lo == some e.flt

end Sys2Proof.Machine
end

