-- ==== Sys2Proof/Machine/State.lean ====
section
/-! DEFINITION. The state of the machine as plain data (10_state.md R20, 45_throttle_neighbour.md R130), its reset value,
and the reasons a step can stop. -/

namespace Sys2Proof.Machine

/-- What the environment presents for one step: the input pins of a clock edge of CORE, or one call of the throttle
neighbour with its request vector (R14, R133). -/
inductive Stimulus where
  | edge (p : Pins)
  | request (r : ThrReq)
deriving DecidableEq, Repr

/-- The events of CORE: the controller's calls on its collaborators (R12). -/
inductive Event where
  | setPattern (hi lo : Phase)
  | arm (flt : Phase) (pol : Polarity)
deriving DecidableEq, Repr

/-- The neighbour's one event, the value pushed to the PWM interface (R130). -/
inductive ThrottleEvent where
  | setDuty (duty : Int)
deriving DecidableEq, Repr

/-- The whole state: the record of R20, the neighbour's register (R130), and the model's own fields (parameters, sampled
pins, coming stimulus, counter of free draws, event lists). -/
structure State where
  /-- MotorMode (R21). -/
  mode : MotorMode
  /-- The current Step, three raw bits; the codes 6 and 7 are unreachable (R22, R66; log 9). -/
  step : BitVec 3
  /-- Energized (R23). -/
  en : Bool
  /-- The current startup delay (R24; log 10). -/
  dly : Nat
  /-- Time units left in the current wait (R25; log 10). -/
  cnt : Nat
  /-- The detector will deliver one event (R26). -/
  armed : Bool
  /-- The zero-crossing interrupt request (R27). -/
  zcPend : Bool
  /-- Previous comparator samples, index = phase code (R28). -/
  cmpQ : BitVec 3
  /-- The neighbour's DutyCycle (R130; log 21). -/
  duty : Int
  /-- The elaboration-time parameters, among them the ROM (R6, R8, R43; log 1). Model's own field. -/
  cfg : Cfg
  /-- The inputs sampled at the clock edge being performed (R31 to R33; log 5). Model's own field. -/
  pins : Pins
  /-- What the environment presents next, oldest first (R69; log 4). Model's own field. -/
  stimulus : List Stimulus
  /-- How many free input draws were used (log 4). Model's own field. -/
  draws : Nat
  /-- The event list of the latest CORE operation (R12; log 6). Model's own field. -/
  events : List Event
  /-- The event list of the latest neighbour call (R130; log 6). Model's own field. -/
  thrEvents : List ThrottleEvent
deriving DecidableEq, Repr

/-- Why the machine could stop with a fault: never. "The block raises no synchronous exception" (R150) and "No operation
faults" (R16), so there is no constructor and nothing raises one; exact, neither safe nor unsafe. -/
inductive Fault where
deriving DecidableEq, Repr

/-- Why the model gives no meaning. -/
inductive Refusal where
  /-- Raised by an arm of exec for an instruction without a meaning; no arm is left that raises it. Safe. -/
  | notModelled (mnemonic : String)
  /-- Raised by step at a clock edge of CORE whose configuration R7 does not admit ("A model refuses an inadmissible
  configuration"). Safe. -/
  | inadmissibleConfiguration
  /-- Raised by step at a neighbour call whose parameters break R8 (MIN_DUTY <= DUTY_RESET <= MAX_DUTY). Safe. -/
  | inadmissibleThrottleParameters
  /-- Raised by force_step_advance called in Running, which R106 and U2 have a model refuse; no step raises it. Safe. -/
  | forceStepWhileRunning
  /-- Raised by step for the request vector 0b11, which R133 and U7 have a model refuse. Safe. -/
  | reservedThrottleRequest
  /-- Raised by step for a select vector that no row of R62 selects; R63: there is none. Safe. -/
  | noSelectRow
deriving DecidableEq, Repr

/-- The three outcomes of one step. -/
abbrev StepOutcome := Host.Outcome State Fault Refusal

/-- The state right after reset: ResetState of R166 for the reference configuration (log 2), the neighbour at DUTY_RESET
(R130), no stimulus listed. -/
def State.reset : State where
  mode := .starting
  step := BitVec.ofNat 3 Cfg.reference.stepReset
  en := false
  dly := Cfg.reference.delayInit
  cnt := Cfg.reference.delayInit
  armed := false
  zcPend := false
  cmpQ := 0b000#3
  duty := Cfg.reference.dutyReset
  cfg := Cfg.reference
  pins := ⟨false, false, false, false, false⟩
  stimulus := []
  draws := 0
  events := []
  thrEvents := []

end Sys2Proof.Machine
end

