-- ==== Sys2Proof/Machine/Operands.lean ====
section
/-! DEFINITION. Operand assembly (30_encoding.md R67): ROM addresses, entries, comparator bits, delays. -/

namespace Sys2Proof.Machine

/-- The comparator inputs as the vector `cmp`: bit 0 = U, bit 1 = V, bit 2 = W (R33). -/
def cmpOf (p : Pins) : BitVec 3 := BitVec.ofBool p.cmpW ++ BitVec.ofBool p.cmpV ++ BitVec.ofBool p.cmpU

/-- The bit of a sample vector that belongs to a phase: index = phase code (R67 (d)). -/
def sampleOf (v : BitVec 3) (p : Phase) : Bool := v.getLsbD (phaseCode p).toNat

/-- The entry being driven and monitored, `entry_for(S.step)` (R67 (a)). -/
def currentEntry (s : State) : CommutationEntry := entryFor s.cfg s.step.toNat

/-- The entry an advancing operation applies, `entry_for(inc6(S.step))` (R67 (a)). -/
def advancedEntry (s : State) : CommutationEntry := entryFor s.cfg (inc6 s.step.toNat)

/-- The step after an advance, as the three bits of the register (R22). -/
def advancedStep (s : State) : BitVec 3 := BitVec.ofNat 3 (inc6 s.step.toNat)

/-- The delay after one decrement (R67 (e), R94). -/
def decrementedDelay (s : State) : Nat := tsub s.dly s.cfg.delayDec

end Sys2Proof.Machine
end

