-- ==== Sys2Proof/Machine/Flags.lean ====
section
/-! DEFINITION. The condition bits of a clock edge (10_state.md R37, 30_encoding.md R61, 42_commutation_controller.md R111). -/

namespace Sys2Proof.Machine

/-- `cnt_z = (S.cnt = 0)` (R61). -/
def cntZ (s : State) : Bool := decide (s.cnt = 0)

/-- `at_floor = (S.dly <= DELAY_FLOOR)`; equality counts as at the floor (R61, R99). -/
def atFloor (s : State) : Bool := decide (s.dly ≤ s.cfg.delayFloor)

/-- `zc_hit` (R111): armed, and an edge of the expected polarity on the comparator of the monitored phase. -/
def zcHit (s : State) : Bool :=
  s.armed && edge (currentEntry s).pol (sampleOf s.cmpQ (currentEntry s).flt)
    (sampleOf (cmpOf s.pins) (currentEntry s).flt)

/-- The select vector of the clock edge whose inputs stand in `pins` (R61). -/
def selVector (s : State) : SelWord :=
  selOf s.pins.rst (s.mode == .running) (cntZ s) (atFloor s) s.pins.tu s.zcPend (zcHit s)

end Sys2Proof.Machine
end

