-- ==== Sys2Proof/Machine/Ops.lean ====
section
/-! DEFINITION. The shared operations: the document's procedures as micro-operations (30_encoding.md R70), taking the
zero-crossing interrupt and serving it (60_exceptions.md R145, R146), and the ramp timer's updates. -/

namespace Sys2Proof.Machine

/-! ## Every clock edge -/

/-- The start of every operation but RESET: the comparators are sampled (R110), the event list is empty (R12). -/
def sampleEdge (s : State) : State := { s with cmpQ := cmpOf s.pins, events := [] }

/-- ResetState of R166 for the state's own configuration, with the empty event list of R165. It writes the record of R20
and nothing else: not the neighbour's duty (R134; DEDUCED, log 11). -/
def resetCore (s : State) : State :=
  { s with
    mode := .starting
    step := BitVec.ofNat 3 s.cfg.stepReset
    en := false
    dly := s.cfg.delayInit
    cnt := s.cfg.delayInit
    armed := false
    zcPend := false
    cmpQ := 0b000#3
    events := [] }

/-! ## Calls on the collaborators -/

/-- The call `set_pattern(DrivePattern)`: the event, in call order (R12). The gates follow from `step` and `en` (R34). -/
def issueSetPattern (e : CommutationEntry) (s : State) : State :=
  { s with events := s.events ++ [.setPattern e.hi e.lo] }

/-- The call `arm(SenseConfig)`: the event, and `armed` set only if the mode is Running (R109). -/
def issueArm (e : CommutationEntry) (s : State) : State :=
  { s with
    events := s.events ++ [.arm e.flt e.pol]
    armed := if s.mode = .running then true else s.armed }

/-- `ApplyEntry` (R81): advance the step, energize, then SetPattern and Arm of the NEW entry, in this order. -/
def applyEntry (s : State) : State :=
  issueArm (advancedEntry s)
    (issueSetPattern (advancedEntry s) { s with step := advancedStep s, en := true })

/-! ## The startup sequencer -/

/-- `next_delay` (R91): none says complete. -/
def nextDelay (c : Cfg) (d : Nat) : Option Nat :=
  if d ≤ c.delayFloor then none else some (tsub d c.delayDec)

/-- One time unit of the wait has elapsed (R93). -/
def countDown (s : State) : State := { s with cnt := s.cnt - 1 }

/-- The decremented delay becomes the current delay and the next wait (R94). -/
def loadNextWait (s : State) : State :=
  { s with dly := decrementedDelay s, cnt := decrementedDelay s }

/-! ## The commutation controller -/

/-- `force_step_advance()` (R106): valid in Starting; a model refuses a call in Running (U2; log 13). -/
def forceStepAdvance (s : State) : StepOutcome :=
  match s.mode with
  | .starting => .next (applyEntry s)
  | .running => .refused .forceStepWhileRunning

/-- `transition_to_running()` (R108): flip the mode, arm the detector for the current step's entry. -/
def transitionToRunning (s : State) : State :=
  issueArm (currentEntry { s with mode := .running }) { s with mode := .running }

/-! ## The zero-crossing interrupt -/

/-- TAKING the interrupt (R113, R143, R145): the request becomes pending, the detector is disarmed, nothing is saved. -/
def requestZeroCrossing (s : State) : State := { s with armed := false, zcPend := true }

/-- `on_zero_crossing_event()`, the handler and its RETURN (R107, R146): apply the next entry, which re-arms the detector
in Running (R109), and clear the request. -/
def onZeroCrossingEvent (s : State) : State := { applyEntry s with zcPend := false }

/-! ## The throttle neighbour -/

/-- `increase()` (R131). -/
def increase (s : State) : State :=
  if s.duty < s.cfg.maxDuty then
    { s with duty := s.duty + 1, thrEvents := [.setDuty (s.duty + 1)] }
  else { s with thrEvents := [] }

/-- `decrease()` (R132). -/
def decrease (s : State) : State :=
  if s.duty > s.cfg.minDuty then
    { s with duty := s.duty - 1, thrEvents := [.setDuty (s.duty - 1)] }
  else { s with thrEvents := [] }

/-- No request: the duty is unchanged and no event is pushed (R133). -/
def noRequest (s : State) : State := { s with thrEvents := [] }

/-! ## Composition -/

/-- Carry on after an operation that may refuse. -/
def thenDo (o : StepOutcome) (f : State → State) : StepOutcome :=
  match o with
  | .next s => .next (f s)
  | .fault r => .fault r
  | .refused r => .refused r

end Sys2Proof.Machine
end

