-- ==== Sys2Proof/Machine/Controller.lean ====
section
/-! DEFINITION. The Running-mode operations: RUN_IDLE, ZCDET, ZCADV (42_commutation_controller.md). -/

namespace Sys2Proof.Machine

/-- RUN_IDLE (R115): keep driving the pattern and wait. -/
def execRunIdle (s : State) : StepOutcome := .next (sampleEdge s)

/-- ZCDET (R113): the qualifying edge raises the interrupt request. -/
def execZcdet (s : State) : StepOutcome := .next (requestZeroCrossing (sampleEdge s))

/-- ZCADV (R114): the handler serves the request. -/
def execZcadv (s : State) : StepOutcome := .next (onZeroCrossingEvent (sampleEdge s))

end Sys2Proof.Machine
end

