-- ==== Sys2Proof/Machine/Reset.lean ====
section
/-! DEFINITION. RESET (70_reset_and_hazards.md). -/

namespace Sys2Proof.Machine

/-- RESET (R165). -/
def execReset (s : State) : StepOutcome := .next (resetCore s)

end Sys2Proof.Machine
end

