-- ==== Sys2Proof/Machine/Startup.lean ====
section
/-! DEFINITION. The startup ramp timer and step sequencer: HOLD, WAIT, FSTEP, FSTEP_LAST (41_startup_sequencer.md). -/

namespace Sys2Proof.Machine

/-- HOLD (R92): the wait is in progress and no time unit elapsed. -/
def execHold (s : State) : StepOutcome := .next (sampleEdge s)

/-- WAIT (R93): one time unit elapsed. -/
def execWait (s : State) : StepOutcome := .next (countDown (sampleEdge s))

/-- FSTEP (R94): a forced step, then the decremented delay is loaded as the next wait. -/
def execFstep (s : State) : StepOutcome := thenDo (forceStepAdvance (sampleEdge s)) loadNextWait

/-- FSTEP_LAST (R95): the boundary forced step, then the transition to Running. -/
def execFstepLast (s : State) : StepOutcome := thenDo (forceStepAdvance (sampleEdge s)) transitionToRunning

end Sys2Proof.Machine
end

