-- ==== Sys2Proof/Machine/Throttle.lean ====
section
/-! DEFINITION. The throttle neighbour's requests: THR_INC, THR_DEC, THR_NONE (45_throttle_neighbour.md). -/

namespace Sys2Proof.Machine

/-- THR_INC (R131). -/
def execThrInc (s : State) : StepOutcome := .next (increase s)

/-- THR_DEC (R132). -/
def execThrDec (s : State) : StepOutcome := .next (decrease s)

/-- THR_NONE (R133). -/
def execThrNone (s : State) : StepOutcome := .next (noRequest s)

end Sys2Proof.Machine
end

