-- ==== Sys2Proof/Machine/Dispatch.lean ====
section
/-! DEFINITION. One arm per operation: the operation map's meanings (30_encoding.md R62, 45_throttle_neighbour.md R133). -/

namespace Sys2Proof.Machine

def exec (i : Instr) (s : State) : Host.Outcome State Fault Refusal :=
  match i with
  | .reset => Sys2Proof.Machine.execReset s
  | .hold => Sys2Proof.Machine.execHold s
  | .wait => Sys2Proof.Machine.execWait s
  | .fstep => Sys2Proof.Machine.execFstep s
  | .fstepLast => Sys2Proof.Machine.execFstepLast s
  | .runIdle => Sys2Proof.Machine.execRunIdle s
  | .zcdet => Sys2Proof.Machine.execZcdet s
  | .zcadv => Sys2Proof.Machine.execZcadv s
  | .thrInc => Sys2Proof.Machine.execThrInc s
  | .thrDec => Sys2Proof.Machine.execThrDec s
  | .thrNone => Sys2Proof.Machine.execThrNone s

end Sys2Proof.Machine
end

