-- ==== Sys2Proof/Machine/Fetch.lean ====
section
/-! DEFINITION. What a step performs: the environment's next stimulus, the word it presents to the decoder, the check of
the parameters, and the placing of a given word as the next one. -/

namespace Sys2Proof.Machine

/-- What the environment presents for the next step: the first listed stimulus; where none is listed, a clock edge with
free inputs (R15; log 4). -/
def nextStimulus (s : State) : Stimulus :=
  match s.stimulus with
  | [] => .edge (Config.freePins s.draws)
  | x :: _ => x

/-- The state in which the operation is performed: the stimulus is used up, the inputs of a clock edge stand in `pins`. -/
def takeStimulus (s : State) : State :=
  match s.stimulus with
  | [] => { s with pins := Config.freePins s.draws, draws := s.draws + 1 }
  | .edge p :: rest => { s with pins := p, stimulus := rest }
  | .request _ :: rest => { s with stimulus := rest }

/-- The word presented to the decoder: at a clock edge the select vector of the inputs and the state before the edge
(R61), at a neighbour call the request vector (R133). -/
def presentedWord (s : State) : Word :=
  match nextStimulus s with
  | .edge _ => .sel (selVector (takeStimulus s))
  | .request r => .thr r

/-- The refusal of an inadmissible configuration (R7, U8, U9), or of the neighbour's parameters at its own calls (R8);
none where the parameters are admissible (log 16). -/
def parameterRefusal (s : State) : Option Refusal :=
  match nextStimulus s with
  | .edge _ => if Admissible s.cfg then none else some .inadmissibleConfiguration
  | .request _ => if ThrottleAdmissible s.cfg then none else some .inadmissibleThrottleParameters

/-- The refusal that answers a rejected word. -/
def refusalOf : Reject → Refusal
  | .noSelectRow => .noSelectRow
  | .reservedThrottleRequest => .reservedThrottleRequest

/-- The state, and the inputs, that present a given select vector: the fields that the condition bits read are set so
that R61 gives exactly that vector; a field that already gives its bit is left alone. -/
def placeSel (s : State) (v : SelWord) : State :=
  let e := currentEntry s
  let code := (phaseCode e.flt).toNat
  let before : Bool := e.pol == .falling
  let samples : BitVec 3 :=
    if v.getLsbD 0 then
      if before then s.cmpQ ||| (1#3 <<< code) else s.cmpQ &&& ~~~(1#3 <<< code)
    else s.cmpQ
  let now : BitVec 3 := if v.getLsbD 0 then samples ^^^ (1#3 <<< code) else samples
  { s with
    mode := if v.getLsbD 5 then .running else .starting
    cnt := if v.getLsbD 4 then 0 else if s.cnt = 0 then 1 else s.cnt
    dly :=
      if v.getLsbD 3 then (if s.dly ≤ s.cfg.delayFloor then s.dly else s.cfg.delayFloor)
      else (if s.dly ≤ s.cfg.delayFloor then s.cfg.delayFloor + 1 else s.dly)
    zcPend := v.getLsbD 1
    armed := if v.getLsbD 0 then true else s.armed
    cmpQ := samples
    stimulus :=
      .edge ⟨v.getLsbD 6, v.getLsbD 2, now.getLsbD 0, now.getLsbD 1, now.getLsbD 2⟩ :: s.stimulus }

/-- A given word placed where the next step takes its word from. -/
def placeWord (s : State) : Word → State
  | .sel v => placeSel s v
  | .thr r => { s with stimulus := .request r :: s.stimulus }

/-- A word of the opcode table placed as the next one (log 7, 8); a number that is no word places nothing. -/
def placeTableWord (s : State) (nbits w : Nat) : State :=
  match tableWord nbits w with
  | some v => placeWord s v
  | none => s

end Sys2Proof.Machine
end

