-- ==== Sys2Proof/Machine/Step.lean ====
section
/-! DEFINITION. One step: one clock edge of CORE, that is one application of Cycle (42_commutation_controller.md R116), or
one call of the throttle neighbour. -/

namespace Sys2Proof.Machine

/-- One step: refuse inadmissible parameters, decode the presented word (R62 governs the selection, C9), perform the
operation on the sampled inputs. -/
def step (s : State) : Host.Outcome State Fault Refusal :=
  match parameterRefusal s with
  | some r => .refused r
  | none =>
    match decode (presentedWord s) with
    | .op i => exec i (takeStimulus s)
    | .rejected r => .refused (refusalOf r)

/-- `s` with a word of the opcode table placed as what the next step runs (log 7). -/
def State.withFetchWord (s : State) (nbits w : Nat) : State := placeTableWord s nbits w

end Sys2Proof.Machine
end

