-- ==== Sys2Proof/Machine/Outputs.lean ====
section
/-! DEFINITION. The output ports (10_state.md R34): pure functions of the state. -/

namespace Sys2Proof.Machine

/-- `gates` (R34): the driven entry's gate vector, all off while not energized. -/
def gates (s : State) : GateWord :=
  if s.en then gateDecode (currentEntry s).hi (currentEntry s).lo else 0b000000#6

/-- `step_o` (R34). -/
def stepO (s : State) : BitVec 3 := s.step

/-- `mode_o` (R34). -/
def modeO (s : State) : BitVec 1 := modeCode s.mode

/-- `armed_o` (R34). -/
def armedO (s : State) : BitVec 1 := BitVec.ofBool s.armed

/-- `zc_irq` (R34). -/
def zcIrq (s : State) : BitVec 1 := BitVec.ofBool s.zcPend

/-- `sense_ph` (R34): the phase code of the monitored phase. -/
def sensePh (s : State) : BitVec 2 := phaseCode (currentEntry s).flt

/-- `sense_pol` (R34): the expected polarity. -/
def sensePol (s : State) : BitVec 1 := polarityCode (currentEntry s).pol

/-- All output ports at once. -/
structure Ports where
  gates : GateWord
  stepO : BitVec 3
  modeO : BitVec 1
  armedO : BitVec 1
  zcIrq : BitVec 1
  sensePh : BitVec 2
  sensePol : BitVec 1
deriving DecidableEq, Repr

/-- The values of the output ports in a state (R34). -/
def outputs (s : State) : Ports :=
  ⟨gates s, stepO s, modeO s, armedO s, zcIrq s, sensePh s, sensePol s⟩

end Sys2Proof.Machine
end

