-- ==== Sys2Proof/Machine/Trace.lean ====
section
/-! DEFINITION. The stimulus-and-trace notation of 30_encoding.md R69 as data: one line per clock edge. -/

namespace Sys2Proof.Machine

/-- One line of a trace (R69): the inputs, the word that encodes the edge, the operation, its events, the state after and
its gates. -/
structure TraceLine where
  pins : Pins
  word : Word
  op : Instr
  events : List Event
  after : State
  gates : GateWord
deriving DecidableEq, Repr

/-- The trace line of the next step; none where the step stops or is no clock edge. -/
def traceLine (s : State) : Option TraceLine :=
  match nextStimulus s, decode (presentedWord s), step s with
  | .edge p, .op i, .next t => some ⟨p, presentedWord s, i, t.events, t, gates t⟩
  | _, _, _ => none

/-- The encoding of a program (R69): the select vectors of the next `n` clock edges. -/
def selTrace : Nat → State → List SelWord
  | 0, _ => []
  | n + 1, s =>
    match presentedWord s, step s with
    | .sel v, .next t => v :: selTrace n t
    | _, _ => []

end Sys2Proof.Machine
end

