-- ==== Sys2Proof/Safety.lean ====
section
/-! DEFINITION. What a safe run is: the invariants of the reachable states (10_state.md R29), the gate patterns that are
allowed at the pins, and the length of the startup ramp (41_startup_sequencer.md R96 to R98). -/

namespace Sys2Proof.Machine

/-! ## Invariants I1 to I6 of R29 -/

/-- I1: the step is below 6. -/
abbrev InvStepBelowSix (s : State) : Prop := s.step.toNat < 6

/-- I2: in Starting the detector is not armed and nothing is pending. -/
abbrev InvStartingDisarmed (s : State) : Prop :=
  s.mode = .starting → s.armed = false ∧ s.zcPend = false

/-- I3: in Running exactly one of armed and pending. -/
abbrev InvRunningArmedXorPending (s : State) : Prop :=
  s.mode = .running → (s.armed ^^ s.zcPend) = true

/-- I4: in Running the bridge is energized and the ramp is over. -/
abbrev InvRunningRampOver (s : State) : Prop :=
  s.mode = .running → s.en = true ∧ s.cnt = 0 ∧ s.dly ≤ s.cfg.delayFloor

/-- I5: the wait never exceeds the delay, the delay never exceeds the initial one. -/
abbrev InvDelayBounds (s : State) : Prop := s.cnt ≤ s.dly ∧ s.dly ≤ s.cfg.delayInit

/-- I6: not energized means still before the first forced step. -/
abbrev InvDeEnergized (s : State) : Prop :=
  s.en = false → s.mode = .starting ∧ s.step.toNat = s.cfg.stepReset ∧ s.dly = s.cfg.delayInit

/-- The invariants I1 to I6 of R29 together. (I7 follows from a valid table alone: `AssertsOnePattern`.) -/
abbrev CoreInv (s : State) : Prop :=
  InvStepBelowSix s ∧ InvStartingDisarmed s ∧ InvRunningArmedXorPending s ∧ InvRunningRampOver s ∧
    InvDelayBounds s ∧ InvDeEnergized s

/-- The neighbour's invariant (R130). -/
abbrev DutyInBounds (s : State) : Prop := s.cfg.minDuty ≤ s.duty ∧ s.duty ≤ s.cfg.maxDuty

/-! ## Gate patterns -/

/-- Bit of the high-side switch in the gate vector: UH 5, VH 3, WH 1 (R59). -/
def highBit : Phase → Nat
  | .U => 5
  | .V => 3
  | .W => 1

/-- Bit of the low-side switch in the gate vector: UL 4, VL 2, WL 0 (R59). -/
def lowBit : Phase → Nat
  | .U => 4
  | .V => 2
  | .W => 0

/-- The phases whose high-side switch a gate vector selects. -/
def highPhases (g : GateWord) : List Phase := [Phase.U, .V, .W].filter fun p => g.getLsbD (highBit p)

/-- The phases whose low-side switch a gate vector selects. -/
def lowPhases (g : GateWord) : List Phase := [Phase.U, .V, .W].filter fun p => g.getLsbD (lowBit p)

/-- I7 of R29 while energized: one high-side and one low-side switch, on two distinct phases, and the monitored phase is
the third one. -/
abbrev AssertsOnePattern (s : State) : Prop :=
  ∃ hi lo : Phase, highPhases (gates s) = [hi] ∧ lowPhases (gates s) = [lo] ∧ hi ≠ lo ∧
    third hi lo = some (currentEntry s).flt

/-- How many switches a gate vector selects. -/
def switchCount (g : GateWord) : Nat := (List.range 6).countP fun k => g.getLsbD k

/-- The states that `n` successive zero-crossing handlers produce, in order. -/
def advances : Nat → State → List State
  | 0, _ => []
  | n + 1, s =>
    match exec .zcadv s with
    | .next t => t :: advances n t
    | .fault _ => []
    | .refused _ => []

/-! ## Operation classes -/

/-- The eight operations of CORE (R62). -/
def coreOps : List Instr := [.reset, .hold, .wait, .fstep, .fstepLast, .runIdle, .zcdet, .zcadv]

/-- The operations of Starting (R154). -/
def startingOps : List Instr := [.hold, .wait, .fstep, .fstepLast]

/-- The operations of Running (R154). -/
def runningOps : List Instr := [.runIdle, .zcdet, .zcadv]

/-- The three request codes of the neighbour (R133). -/
def throttleOps : List Instr := [.thrInc, .thrDec, .thrNone]

/-- A qualifying edge (R112): the inputs `p` show, against the stored samples, an edge of the expected polarity on the
comparator of the monitored phase while the detector is armed. -/
def qualifies (s : State) (p : Pins) : Bool :=
  s.armed && edge (currentEntry s).pol (sampleOf s.cmpQ (currentEntry s).flt)
    (sampleOf (cmpOf p) (currentEntry s).flt)

/-! ## The ramp as a whole -/

/-- `K` of R96: ceil((D - F) / Sd) where D > F, else 0. -/
def rampSteps (c : Cfg) : Nat :=
  if c.delayInit > c.delayFloor then (c.delayInit - c.delayFloor + (c.delayDec - 1)) / c.delayDec else 0

/-- `d_k` of R96: the delay after `k` decrements. -/
def rampDelay (c : Cfg) : Nat → Nat
  | 0 => c.delayInit
  | k + 1 => tsub (rampDelay c k) c.delayDec

/-- `T` of R98: the time units of all the waits, d_0 + d_1 + ... + d_K. -/
def rampUnits (c : Cfg) : Nat := ((List.range (rampSteps c + 1)).map (rampDelay c)).sum

/-- The number of times an operation occurs among the encoded clock edges of a run. -/
def countOp (i : Instr) (l : List SelWord) : Nat := l.countP fun v => decode (.sel v) == .op i

end Sys2Proof.Machine
end

