-- ==== Sys2Proof/WellFormed.lean ====
section
/-! DEFINITION. Well-formedness: of an instruction, of a word, of a table image, of a configuration. -/

namespace Sys2Proof

/-- Every operation is well formed: it has no operand to check (R67). -/
def Instr.wellFormed (_ : Instr) : Bool := true

/-- A word is well formed when it is no reserved encoding (R64: no select vector is illegal; R133: 0b11 is reserved). -/
def Word.wellFormed : Word → Bool
  | .sel _ => true
  | .thr v => v != 0b11#2

/-- A configuration is well formed when R7 admits it. -/
def Cfg.wellFormed (c : Cfg) : Bool := decide (Machine.Admissible c)

/-- The neighbour's parameters are well formed when R8 admits them. -/
def Cfg.throttleWellFormed (c : Cfg) : Bool := decide (Machine.ThrottleAdmissible c)

/-- A ROM image is well formed when its words decode to a table that R82 admits. -/
def romWellFormed (rom : Vector RomWord 6) : Bool :=
  match Machine.tableOfRom rom with
  | none => false
  | some t => decide (Machine.ValidTable t)

end Sys2Proof
end

