-- ==== Sys2Proof/Certificates/Slice0/Obligations.lean ====
section
/-! DEFINITION. The statements for the provers: what the numbered rules of the spec say of the operations, of one clock edge,
of the interrupt, of the table, of the throttle neighbour and of the startup ramp. -/

open Sys2Proof Sys2Proof.Machine

/-! ## Encodings -/

/-- R62: the operation map, row by row: a select vector selects an operation exactly when (sel & mask) = match. -/
def Obligations.SelectMapFollowsMaskAndMatch : Prop :=
  ∀ v : SelWord,
    (decode (.sel v) = .op .reset ↔ v &&& 0x40#7 = 0x40#7) ∧
    (decode (.sel v) = .op .hold ↔ v &&& 0x74#7 = 0x00#7) ∧
    (decode (.sel v) = .op .wait ↔ v &&& 0x74#7 = 0x04#7) ∧
    (decode (.sel v) = .op .fstep ↔ v &&& 0x78#7 = 0x10#7) ∧
    (decode (.sel v) = .op .fstepLast ↔ v &&& 0x78#7 = 0x18#7) ∧
    (decode (.sel v) = .op .runIdle ↔ v &&& 0x63#7 = 0x20#7) ∧
    (decode (.sel v) = .op .zcdet ↔ v &&& 0x63#7 = 0x21#7) ∧
    (decode (.sel v) = .op .zcadv ↔ v &&& 0x62#7 = 0x22#7)

/-- The spec's own inference R63 with its vector V-E12: every one of the 128 select vectors selects exactly one
operation; RESET has 64 of them, ZCADV 16, the other six 8 each. -/
def Obligations.SelectMapIsTotalAndUnambiguous : Prop :=
  (∀ v : SelWord, ∃ i, decode (.sel v) = .op i ∧ i ∈ coreOps) ∧
  let all : List SelWord := (List.range 128).map (BitVec.ofNat 7)
  countOp .reset all = 64 ∧ countOp .zcadv all = 16 ∧ countOp .hold all = 8 ∧ countOp .wait all = 8 ∧
  countOp .fstep all = 8 ∧ countOp .fstepLast all = 8 ∧ countOp .runIdle all = 8 ∧ countOp .zcdet all = 8

/-- Decode and encode agree: every well-formed operation's encoded word is well formed and decodes to it. -/
def Obligations.EncodedOperationDecodesToItself : Prop :=
  ∀ i : Instr, i.wellFormed = true → (encode i).wellFormed = true ∧ decode (encode i) = .op i

/-- Some words written out from R62 and R133 (vectors V-E1, V-E3, V-E5, V-E7, V-E9, V-E10, V-E11) decode to the
operations they stand for. -/
def Obligations.SampleWordsDecodeAsWritten : Prop :=
  decode (.sel 0b0000000#7) = .op .hold ∧ decode (.sel 0b0001100#7) = .op .wait ∧
  decode (.sel 0b0010100#7) = .op .fstep ∧ decode (.sel 0b0011100#7) = .op .fstepLast ∧
  decode (.sel 0b0111000#7) = .op .runIdle ∧ decode (.sel 0b0111001#7) = .op .zcdet ∧
  decode (.sel 0b0100011#7) = .op .zcadv ∧ decode (.sel 0b0000011#7) = .op .hold ∧
  decode (.sel 0b1111110#7) = .op .reset ∧ decode (.thr 0b10#2) = .op .thrInc ∧
  decode (.thr 0b01#2) = .op .thrDec ∧ decode (.thr 0b00#2) = .op .thrNone

/-- The model's own placing of a word (log 7): from every state, a select vector placed as the next word is exactly the
vector that the next clock edge forms from its inputs and the state; likewise a request vector. -/
def Obligations.PlacedWordIsThePresentedWord : Prop :=
  ∀ (s : State) (w : Word), presentedWord (placeWord s w) = w

/-- R80: `entry_for(s) = TABLE[mod6(s)] = Decode7(MemRead(s, 1))`, for every step number and every table. -/
def Obligations.RomLookupDecodesTheTableEntry : Prop :=
  (∀ (c : Cfg) (a : Nat) (h : a % 6 < 6),
    entryFor c a = c.table[a % 6] ∧ decode7 (memRead c a) = some (entryFor c a) ∧
    entryFor c (a % 6) = entryFor c a) ∧
  ∀ c : Cfg, c.table = tableRef →
    entryFor c 3 = ⟨.V, .U, .W, .rising⟩ ∧ memRead c 3 = 0x25#7

/-- R65: of the 128 ROM words exactly 12 are admissible, and a ROM image that holds an inadmissible word is refused. -/
def Obligations.AdmissibleRomWordsAreTwelve : Prop :=
  (((List.range 128).map (BitVec.ofNat 7)).countP romWordAdmissible = 12) ∧
  (∀ w : RomWord, romWordAdmissible w = true ↔
    ∃ e : CommutationEntry, decode7 w = some e ∧ e.hi ≠ e.lo ∧ third e.hi e.lo = some e.flt) ∧
  ∀ (rom : Vector RomWord 6) (k : Fin 6), romWordAdmissible rom[k] = false → romWellFormed rom = false

/-- R59: GateDecode sets exactly the high-side bit of `hi` and the low-side bit of `lo`; the six values. -/
def Obligations.GateDecodeAssertsExactlyTheTwoNamedSwitches : Prop :=
  (∀ hi lo : Phase, ∀ k < 6, (gateDecode hi lo).getLsbD k =
    (k == 5 - 2 * (phaseCode hi).toNat || k == 4 - 2 * (phaseCode lo).toNat)) ∧
  (∀ hi lo p : Phase, hi ≠ lo →
    ¬ ((gateDecode hi lo).getLsbD (highBit p) = true ∧ (gateDecode hi lo).getLsbD (lowBit p) = true)) ∧
  gateDecode .U .V = 0b100100#6 ∧ gateDecode .U .W = 0b100001#6 ∧ gateDecode .V .W = 0b001001#6 ∧
  gateDecode .V .U = 0b011000#6 ∧ gateDecode .W .U = 0b010010#6 ∧ gateDecode .W .V = 0b000110#6

/-- R56, R57, R58: the codes of phases, polarities and modes, the reserved phase code, and what a polarity means on two
successive comparator samples. -/
def Obligations.EnumerationCodesAndEdgePolarity : Prop :=
  (phaseCode .U = 0b00#2 ∧ phaseCode .V = 0b01#2 ∧ phaseCode .W = 0b10#2 ∧ phaseOfCode 0b11#2 = none) ∧
  (∀ w : RomWord, romWordAdmissible w = true →
    w.extractLsb' 5 2 ≠ 0b11#2 ∧ w.extractLsb' 3 2 ≠ 0b11#2 ∧ w.extractLsb' 1 2 ≠ 0b11#2) ∧
  (polarityCode .falling = 0#1 ∧ polarityCode .rising = 1#1) ∧
  (modeCode .starting = 0#1 ∧ modeCode .running = 1#1) ∧
  ∀ prev now : Bool,
    (edge .rising prev now = true ↔ prev = false ∧ now = true) ∧
    (edge .falling prev now = true ↔ prev = true ∧ now = false)

/-! ## One step -/

/-- A step runs the decoded operation: where the parameters are admissible and the presented word decodes to `i`, the step
is exec of `i` on the state in which the stimulus has been taken. What taking it is, is the model's choice: the sampled
inputs stand in `pins` (log 5, DESIGN CHOICE); a listed stimulus is used up, else the inputs are a free draw and the draw is
counted (log 4, DESIGN CHOICE); nothing else has changed. -/
def Obligations.StepRunsTheDecodedOperation : Prop :=
  ∀ (s : State) (i : Instr),
    parameterRefusal s = none → decode (presentedWord s) = .op i → i.wellFormed = true →
      step s = exec i (takeStimulus s) ∧
      ((s.stimulus = [] ∧
          takeStimulus s = { s with pins := Config.freePins s.draws, draws := s.draws + 1 }) ∨
        (∃ p rest, s.stimulus = .edge p :: rest ∧ takeStimulus s = { s with pins := p, stimulus := rest }) ∨
        (∃ r rest, s.stimulus = .request r :: rest ∧ takeStimulus s = { s with stimulus := rest }))

/-- R61: the seven bits of the select vector at a clock edge. -/
def Obligations.SelectVectorReadsTheSevenConditions : Prop :=
  ∀ (s : State) (p : Pins), nextStimulus s = .edge p →
    ∃ v : SelWord, presentedWord s = .sel v ∧
      v.getLsbD 6 = p.rst ∧ v.getLsbD 5 = decide (s.mode = .running) ∧ v.getLsbD 4 = decide (s.cnt = 0) ∧
      v.getLsbD 3 = decide (s.dly ≤ s.cfg.delayFloor) ∧ v.getLsbD 2 = p.tu ∧ v.getLsbD 1 = s.zcPend ∧
      v.getLsbD 0 = qualifies s p

/-- R7: a configuration that breaks any of the listed constraints is refused at every clock edge. -/
def Obligations.InadmissibleConfigurationIsRefused : Prop :=
  ∀ (s : State) (p : Pins), nextStimulus s = .edge p →
    (¬ ValidTable s.cfg.table ∨ s.cfg.delayDec = 0 ∨ 2 ^ s.cfg.dw ≤ s.cfg.delayInit ∨
      2 ^ s.cfg.dw ≤ s.cfg.delayFloor ∨ 6 ≤ s.cfg.stepReset) →
    step s = .refused .inadmissibleConfiguration

/-- R150: no operation can fail. Every clock edge of an admissible configuration, from every state and under every input,
performs one operation of CORE and gives a next state; there is no fault to give. -/
def Obligations.EveryClockEdgeCompletes : Prop :=
  (∀ _ : Fault, False) ∧
  ∀ (s : State) (p : Pins), nextStimulus s = .edge p → Admissible s.cfg →
    ∃ i t, i ∈ coreOps ∧ decode (presentedWord s) = .op i ∧ step s = .next t

/-- The spec's own inference R116: Cycle, the selection as nested conditions, is the selection of the operation map
(conflict C9). -/
def Obligations.CycleSelectsByNestedConditions : Prop :=
  ∀ (s : State) (p : Pins), nextStimulus s = .edge p → Admissible s.cfg →
    step s =
      if p.rst = true then exec .reset (takeStimulus s)
      else if s.mode = .starting then
        if s.cnt ≠ 0 then
          if p.tu = true then exec .wait (takeStimulus s) else exec .hold (takeStimulus s)
        else if s.dly > s.cfg.delayFloor then exec .fstep (takeStimulus s)
        else exec .fstepLast (takeStimulus s)
      else if s.zcPend = true then exec .zcadv (takeStimulus s)
      else if s.armed = true ∧ edge (entryFor s.cfg s.step.toNat).pol
          (sampleOf s.cmpQ (entryFor s.cfg s.step.toNat).flt)
          (sampleOf (cmpOf p) (entryFor s.cfg s.step.toNat).flt) = true then exec .zcdet (takeStimulus s)
      else exec .runIdle (takeStimulus s)

/-! ## The operations -/

/-- R165: RESET is selected whenever rst = 1, and it puts every field of the record into its reset value with an empty
event list; the gates go off; a second RESET changes nothing; the comparators are not sampled. The model's own fields
`cfg`, `pins`, `stimulus` and `draws` stay (log 1, 4, 5). -/
def Obligations.ResetOperationGivesTheResetState : Prop :=
  (∀ v : SelWord, decode (.sel v) = .op .reset ↔ v.getLsbD 6 = true) ∧
  ∀ s : State, ∃ t : State, exec .reset s = .next t ∧
    t.mode = .starting ∧ t.step = BitVec.ofNat 3 s.cfg.stepReset ∧ t.en = false ∧
    t.dly = s.cfg.delayInit ∧ t.cnt = s.cfg.delayInit ∧ t.armed = false ∧ t.zcPend = false ∧
    t.cmpQ = 0b000#3 ∧ t.events = [] ∧ gates t = 0b000000#6 ∧
    (t.cfg = s.cfg ∧ t.pins = s.pins ∧ t.stimulus = s.stimulus ∧ t.draws = s.draws) ∧
    exec .reset t = .next t

/-- R166: the value of every piece of state after reset, and the outputs in the reset state. Every value is stated through
the parameters of the state's own configuration, but STEP_RESET = 5, which the rule gives. -/
def Obligations.ResetStateHoldsTheResetValues : Prop :=
  State.reset.mode = .starting ∧ State.reset.cfg.stepReset = 5 ∧ State.reset.step = 5#3 ∧
  State.reset.en = false ∧ State.reset.dly = State.reset.cfg.delayInit ∧
  State.reset.cnt = State.reset.cfg.delayInit ∧ State.reset.armed = false ∧ State.reset.zcPend = false ∧
  State.reset.cmpQ = 0b000#3 ∧ State.reset.duty = State.reset.cfg.dutyReset ∧
  outputs State.reset =
    ⟨0b000000#6, 5#3, 0#1, 0#1, 0#1, phaseCode (entryFor State.reset.cfg 5).flt,
      polarityCode (entryFor State.reset.cfg 5).pol⟩

/-- R92: HOLD samples the comparators, issues no event, and changes nothing else. -/
def Obligations.HoldOnlySamples : Prop :=
  (∀ v : SelWord, decode (.sel v) = .op .hold ↔ v &&& 0b1110100#7 = 0b0000000#7) ∧
  ∀ s : State, exec .hold s = .next { s with cmpQ := cmpOf s.pins, events := [] }

/-- WAIT (41_startup_sequencer.md section 2): where a wait is in progress, one time unit less remains; the comparators are
sampled, no event, and nothing else changes. When the wait has run out, the next clock edge without reset is a tick
whatever tu is. -/
def Obligations.WaitCountsOneTimeUnit : Prop :=
  (∀ s : State, s.cnt ≠ 0 →
    ∃ t : State, exec .wait s = .next t ∧ t.cnt + 1 = s.cnt ∧
      t = { s with cnt := t.cnt, cmpQ := cmpOf s.pins, events := [] }) ∧
  ∀ (s : State) (p : Pins), s.mode = .starting → s.cnt = 0 → nextStimulus s = .edge p → p.rst = false →
    decode (presentedWord s) = .op .fstep ∨ decode (presentedWord s) = .op .fstepLast

/-- R94: FSTEP in Starting advances the step modulo 6, energizes, loads the truncated decremented delay as delay and next
wait, samples, issues SetPattern and Arm of the new entry, and changes nothing else; the new entry is on the pins. A
delay of 0 makes the next tick FSTEP_LAST. -/
def Obligations.FstepForcesAStepAndShortensTheDelay : Prop :=
  (∀ v : SelWord, decode (.sel v) = .op .fstep ↔ v &&& 0b1111000#7 = 0b0010000#7) ∧
  (∀ s : State, s.mode = .starting →
    ∃ t : State, exec .fstep s = .next t ∧
      t = { s with
        step := BitVec.ofNat 3 ((s.step.toNat + 1) % 6)
        en := true
        dly := s.dly - s.cfg.delayDec
        cnt := s.dly - s.cfg.delayDec
        cmpQ := cmpOf s.pins
        events :=
          [.setPattern (entryFor s.cfg ((s.step.toNat + 1) % 6)).hi (entryFor s.cfg ((s.step.toNat + 1) % 6)).lo,
           .arm (entryFor s.cfg ((s.step.toNat + 1) % 6)).flt (entryFor s.cfg ((s.step.toNat + 1) % 6)).pol] } ∧
      gates t = gateDecode (entryFor s.cfg (s.step.toNat + 1)).hi (entryFor s.cfg (s.step.toNat + 1)).lo ∧
      sensePh t = phaseCode (entryFor s.cfg (s.step.toNat + 1)).flt ∧
      sensePol t = polarityCode (entryFor s.cfg (s.step.toNat + 1)).pol) ∧
  ∀ (s : State) (p : Pins), s.mode = .starting → s.cnt = 0 → s.dly = 0 → nextStimulus s = .edge p →
    p.rst = false → decode (presentedWord s) = .op .fstepLast

/-- FSTEP_LAST (41_startup_sequencer.md section 2): in Starting it performs the boundary forced step and the transition:
Running, armed, a second Arm of the same entry last in the event list; delay and wait keep their values. -/
def Obligations.FstepLastForcesTheBoundaryStepAndStartsRunning : Prop :=
  ∀ s : State, s.mode = .starting →
    ∃ t : State, exec .fstepLast s = .next t ∧
      t = { s with
        mode := .running
        step := BitVec.ofNat 3 ((s.step.toNat + 1) % 6)
        en := true
        armed := true
        cmpQ := cmpOf s.pins
        events :=
          [.setPattern (entryFor s.cfg ((s.step.toNat + 1) % 6)).hi (entryFor s.cfg ((s.step.toNat + 1) % 6)).lo,
           .arm (entryFor s.cfg ((s.step.toNat + 1) % 6)).flt (entryFor s.cfg ((s.step.toNat + 1) % 6)).pol,
           .arm (entryFor s.cfg ((s.step.toNat + 1) % 6)).flt (entryFor s.cfg ((s.step.toNat + 1) % 6)).pol] } ∧
      gates t = gateDecode (entryFor s.cfg (s.step.toNat + 1)).hi (entryFor s.cfg (s.step.toNat + 1)).lo ∧
      sensePh t = phaseCode (entryFor s.cfg (s.step.toNat + 1)).flt ∧
      sensePol t = polarityCode (entryFor s.cfg (s.step.toNat + 1)).pol

/-- R106 (42_commutation_controller.md section 2): `force_step_advance` in Starting advances, energizes, issues SetPattern
then Arm, and leaves `armed` unchanged; called in Running (the override) it is refused. That exec of FSTEP and of FSTEP_LAST
on a Running state is such a call, and is refused with it, is the model's reading (log 13, DESIGN CHOICE); no step ever makes
that call. -/
def Obligations.ForceStepIsRefusedWhileRunning : Prop :=
  (∀ s : State, s.mode = .starting →
    ∃ t : State, forceStepAdvance s = .next t ∧ t.step.toNat = (s.step.toNat + 1) % 6 ∧ t.en = true ∧
      t.armed = s.armed ∧
      t.events = s.events ++
        [.setPattern (entryFor s.cfg (s.step.toNat + 1)).hi (entryFor s.cfg (s.step.toNat + 1)).lo,
         .arm (entryFor s.cfg (s.step.toNat + 1)).flt (entryFor s.cfg (s.step.toNat + 1)).pol]) ∧
  (∀ s : State, s.mode = .running →
    forceStepAdvance s = .refused .forceStepWhileRunning ∧
    exec .fstep s = .refused .forceStepWhileRunning ∧
    exec .fstepLast s = .refused .forceStepWhileRunning) ∧
  ∀ s : State, step s ≠ .refused .forceStepWhileRunning

/-- R115: RUN_IDLE samples the comparators, issues no event, and changes nothing else. -/
def Obligations.RunIdleOnlySamples : Prop :=
  (∀ v : SelWord, decode (.sel v) = .op .runIdle ↔ v &&& 0b1100011#7 = 0b0100000#7) ∧
  ∀ s : State, exec .runIdle s = .next { s with cmpQ := cmpOf s.pins, events := [] }

/-- R113: ZCDET disarms the detector and raises the request; step, gates and mode do not change; the handler is the
operation of the next clock edge unless rst intervenes. -/
def Obligations.ZcdetRaisesTheRequestAndDisarms : Prop :=
  (∀ v : SelWord, decode (.sel v) = .op .zcdet ↔ v &&& 0b1100011#7 = 0b0100001#7) ∧
  (∀ s : State, ∃ t : State, exec .zcdet s = .next t ∧
    t = { s with armed := false, zcPend := true, cmpQ := cmpOf s.pins, events := [] } ∧ gates t = gates s) ∧
  ∀ (s : State) (p : Pins), s.mode = .running → s.zcPend = true → nextStimulus s = .edge p → p.rst = false →
    decode (presentedWord s) = .op .zcadv

/-- R114: ZCADV in Running advances the step modulo 6, applies the new entry, re-arms the detector, clears the request,
samples, issues SetPattern and Arm of the new entry, and changes nothing else. -/
def Obligations.ZcadvServesTheRequest : Prop :=
  (∀ v : SelWord, decode (.sel v) = .op .zcadv ↔ v &&& 0b1100010#7 = 0b0100010#7) ∧
  ∀ s : State, s.mode = .running →
    ∃ t : State, exec .zcadv s = .next t ∧
      t = { s with
        step := BitVec.ofNat 3 ((s.step.toNat + 1) % 6)
        en := true
        armed := true
        zcPend := false
        cmpQ := cmpOf s.pins
        events :=
          [.setPattern (entryFor s.cfg ((s.step.toNat + 1) % 6)).hi (entryFor s.cfg ((s.step.toNat + 1) % 6)).lo,
           .arm (entryFor s.cfg ((s.step.toNat + 1) % 6)).flt (entryFor s.cfg ((s.step.toNat + 1) % 6)).pol] } ∧
      gates t = gateDecode (entryFor s.cfg (s.step.toNat + 1)).hi (entryFor s.cfg (s.step.toNat + 1)).lo ∧
      sensePh t = phaseCode (entryFor s.cfg (s.step.toNat + 1)).flt ∧
      sensePol t = polarityCode (entryFor s.cfg (s.step.toNat + 1)).pol

/-- R131: THR_INC below the bound adds 1 and pushes the new duty; at the bound nothing changes and nothing is pushed;
called MAX_DUTY - MIN_DUTY + 5 times from MIN_DUTY it yields exactly MAX_DUTY. -/
def Obligations.ThrIncSaturatesAtMaxDuty : Prop :=
  decode (.thr 0b10#2) = .op .thrInc ∧
  (∀ s : State, exec .thrInc s = .next (increase s)) ∧
  (∀ s : State, s.duty < s.cfg.maxDuty →
    exec .thrInc s = .next { s with duty := s.duty + 1, thrEvents := [.setDuty (s.duty + 1)] }) ∧
  (∀ s : State, s.cfg.maxDuty ≤ s.duty → exec .thrInc s = .next { s with thrEvents := [] }) ∧
  ∀ s : State, s.cfg.minDuty ≤ s.cfg.maxDuty → s.duty = s.cfg.minDuty →
    (increase^[(s.cfg.maxDuty - s.cfg.minDuty).toNat + 5] s).duty = s.cfg.maxDuty

/-- R132: THR_DEC above the bound subtracts 1 and pushes the new duty; at the bound nothing changes and nothing is pushed;
called MAX_DUTY - MIN_DUTY + 5 times from MAX_DUTY it yields exactly MIN_DUTY. -/
def Obligations.ThrDecSaturatesAtMinDuty : Prop :=
  decode (.thr 0b01#2) = .op .thrDec ∧
  (∀ s : State, exec .thrDec s = .next (decrease s)) ∧
  (∀ s : State, s.cfg.minDuty < s.duty →
    exec .thrDec s = .next { s with duty := s.duty - 1, thrEvents := [.setDuty (s.duty - 1)] }) ∧
  (∀ s : State, s.duty ≤ s.cfg.minDuty → exec .thrDec s = .next { s with thrEvents := [] }) ∧
  ∀ s : State, s.cfg.minDuty ≤ s.cfg.maxDuty → s.duty = s.cfg.maxDuty →
    (decrease^[(s.cfg.maxDuty - s.cfg.minDuty).toNat + 5] s).duty = s.cfg.minDuty

/-- R133: the request codes; THR_NONE leaves the duty and pushes nothing; 0b11 is refused; the other three complete in
every mode. -/
def Obligations.ThrNoneLeavesTheDutyAndReservedIsRefused : Prop :=
  decode (.thr 0b10#2) = .op .thrInc ∧ decode (.thr 0b01#2) = .op .thrDec ∧
  decode (.thr 0b00#2) = .op .thrNone ∧ decode (.thr 0b11#2) = .rejected .reservedThrottleRequest ∧
  (∀ s : State, exec .thrNone s = .next { s with thrEvents := [] }) ∧
  (∀ s : State, ThrottleAdmissible s.cfg → nextStimulus s = .request 0b11#2 →
    step s = .refused .reservedThrottleRequest) ∧
  ∀ (s : State) (r : ThrReq), ThrottleAdmissible s.cfg → nextStimulus s = .request r → r ≠ 0b11#2 →
    ∃ t : State, step s = .next t

/-- The model's choice of log 16 on the parameters of R8: a neighbour call under bounds that R8 does not admit is
refused by name, whatever the request. -/
def Obligations.InadmissibleDutyBoundsAreRefused : Prop :=
  ∀ (s : State) (r : ThrReq), nextStimulus s = .request r →
    (s.cfg.maxDuty < s.cfg.minDuty ∨ s.cfg.dutyReset < s.cfg.minDuty ∨ s.cfg.maxDuty < s.cfg.dutyReset) →
    step s = .refused .inadmissibleThrottleParameters

/-- R34: every output port is a function of the state: the gates of the driven entry while energized and all off
otherwise, the step, the mode, the flags, and the monitored phase and polarity of the current entry. -/
def Obligations.OutputPortsFollowTheState : Prop :=
  ∀ s : State,
    (s.en = false → (outputs s).gates = 0b000000#6) ∧
    (s.en = true → (outputs s).gates =
      gateDecode (entryFor s.cfg s.step.toNat).hi (entryFor s.cfg s.step.toNat).lo) ∧
    (outputs s).stepO = s.step ∧
    ((outputs s).modeO = 1#1 ↔ s.mode = .running) ∧
    ((outputs s).armedO = 1#1 ↔ s.armed = true) ∧
    ((outputs s).zcIrq = 1#1 ↔ s.zcPend = true) ∧
    (outputs s).sensePh = phaseCode (entryFor s.cfg s.step.toNat).flt ∧
    ((outputs s).sensePol = 1#1 ↔ (entryFor s.cfg s.step.toNat).pol = .rising)

/-! ## Inputs -/

/-- R110: at every clock edge with rst = 0, whatever the operation, the three comparator levels become the stored samples;
RESET stores 000. -/
def Obligations.ComparatorsAreSampledAtEveryEdge : Prop :=
  ∀ (s t : State) (p : Pins), nextStimulus s = .edge p → step s = .next t →
    t.cmpQ.getLsbD 0 = (!p.rst && p.cmpU) ∧ t.cmpQ.getLsbD 1 = (!p.rst && p.cmpV) ∧
    t.cmpQ.getLsbD 2 = (!p.rst && p.cmpW)

/-- R32 (10_state.md section 3): the time-unit strobe makes no difference but in the choice between HOLD and WAIT. -/
def Obligations.StrobeMattersOnlyDuringAWait : Prop :=
  ∀ (s t : State) (p : Pins) (l : List Stimulus) (b : Bool), s.stimulus = .edge p :: l →
    ¬ (s.mode = .starting ∧ s.cnt ≠ 0 ∧ p.rst = false) → step s = .next t →
    step { s with stimulus := .edge { p with tu := b } :: l } = .next { t with pins := { p with tu := b } }

/-- R90: the sequencer never inspects BEMF: in Starting neither the comparator levels nor the stored samples change what a
clock edge does, but for the samples it copies; it is active exactly while the mode is Starting. -/
def Obligations.StartupIgnoresComparators : Prop :=
  (∀ (s t : State) (p p' : Pins) (q : BitVec 3) (l : List Stimulus), s.stimulus = .edge p :: l →
    s.mode = .starting → p.rst = false → p'.rst = false → p'.tu = p.tu → step s = .next t →
    step { s with cmpQ := q, stimulus := .edge p' :: l } = .next { t with cmpQ := cmpOf p', pins := p' }) ∧
  ∀ (s : State) (p : Pins), nextStimulus s = .edge p → p.rst = false →
    ∃ i, decode (presentedWord s) = .op i ∧ (i ∈ startingOps ↔ s.mode = .starting)

/-- The spec's own inference R168: while the detector is not armed, the stored samples make no difference to a clock edge;
in particular their reset value is never observed. -/
def Obligations.DisarmedDetectorIgnoresSamples : Prop :=
  ∀ (s : State) (p : Pins) (q : BitVec 3), nextStimulus s = .edge p → s.armed = false →
    step { s with cmpQ := q } = step s

/-! ## The zero-crossing interrupt -/

/-- R144: there is no mask: a pending request is served at the very next clock edge with rst = 0. -/
def Obligations.PendingRequestIsServedAtTheNextEdge : Prop :=
  ∀ (s : State) (p : Pins), Admissible s.cfg → s.mode = .running → s.zcPend = true →
    nextStimulus s = .edge p → p.rst = false →
    ∃ t : State, step s = .next t ∧ t.zcPend = false ∧ t.armed = true ∧ t.mode = .running ∧
      t.step.toNat = (s.step.toNat + 1) % 6

/-- R142 (60_exceptions.md section 1): in the reachable states of Starting no edge is a hit and neither ZCDET nor ZCADV is
selected; after a step into or within Starting the detector is still not armed. -/
def Obligations.StartingDeliversNoEvent : Prop :=
  ∀ (s : State) (p : Pins), CoreInv s → s.mode = .starting → nextStimulus s = .edge p →
    qualifies s p = false ∧ decode (presentedWord s) ≠ .op .zcdet ∧ decode (presentedWord s) ≠ .op .zcadv ∧
    ∀ t : State, step s = .next t → t.zcPend = false ∧ (t.armed = true → t.mode = .running)

/-- R143: a request becomes pending only by ZCDET, which disarms the detector; it is cleared only by ZCADV or RESET; ZCDET
happens only with nothing pending, ZCADV only with a request pending. -/
def Obligations.RequestIsRaisedByAnEdgeAndClearedByTheHandler : Prop :=
  ∀ s t : State, step s = .next t →
    (s.zcPend = false → t.zcPend = true →
      decode (presentedWord s) = .op .zcdet ∧ s.armed = true ∧ t.armed = false) ∧
    (s.zcPend = true → t.zcPend = false →
      decode (presentedWord s) = .op .zcadv ∨ decode (presentedWord s) = .op .reset) ∧
    (decode (presentedWord s) = .op .zcdet → s.zcPend = false ∧ t.zcPend = true ∧ t.armed = false) ∧
    (decode (presentedWord s) = .op .zcadv → s.zcPend = true ∧ t.zcPend = false)

/-- The spec's own inference R176, the lost-edge window: at the handler's clock edge the inputs (but rst) make no
difference but for the samples that are copied. -/
def Obligations.LostEdgeWindowIgnoresComparators : Prop :=
  ∀ (s t : State) (p p' : Pins) (l : List Stimulus), s.stimulus = .edge p :: l → s.mode = .running →
    s.zcPend = true → p.rst = false → p'.rst = false → step s = .next t →
    step { s with stimulus := .edge p' :: l } = .next { t with cmpQ := cmpOf p', pins := p' }

/-- R120 (42_commutation_controller.md section 6): a qualifying edge shows its request after one clock edge, with the old
pattern still driven, and the new pattern after the second, with the detector armed again. -/
def Obligations.QualifyingEdgeAdvancesInTwoEdges : Prop :=
  ∀ (s : State) (p p' : Pins) (l : List Stimulus), Admissible s.cfg → s.mode = .running → s.zcPend = false →
    s.stimulus = .edge p :: .edge p' :: l → p.rst = false → p'.rst = false → qualifies s p = true →
    ∃ u t : State, step s = .next u ∧ step u = .next t ∧
      u.zcPend = true ∧ u.armed = false ∧ u.step = s.step ∧ gates u = gates s ∧
      t.zcPend = false ∧ t.armed = true ∧ t.mode = .running ∧ t.cmpQ = cmpOf p' ∧
      t.step.toNat = (s.step.toNat + 1) % 6 ∧
      gates t = gateDecode (entryFor s.cfg (s.step.toNat + 1)).hi (entryFor s.cfg (s.step.toNat + 1)).lo

/-- R120 (42_commutation_controller.md section 6): the clock edge after a handler without reset does not advance the
step: two advances in Running are at least two clock edges apart. -/
def Obligations.AdvancesAreTwoEdgesApart : Prop :=
  ∀ (s t u : State) (p : Pins), step s = .next t → decode (presentedWord s) = .op .zcadv →
    nextStimulus t = .edge p → p.rst = false → step t = .next u → u.step = t.step

/-- R152 (60_exceptions.md section 3), a stall: in Running with the detector armed, while the level of the monitored
comparator stays what it was, any number of clock edges changes nothing but the samples, the pins, the stimulus that is
used up and the event list. -/
def Obligations.StallKeepsThePattern : Prop :=
  ∀ (s : State) (l : List Pins), Admissible s.cfg → s.mode = .running → s.armed = true → s.zcPend = false →
    s.stimulus = l.map Stimulus.edge →
    (∀ p ∈ l, p.rst = false ∧
      sampleOf (cmpOf p) (currentEntry s).flt = sampleOf s.cmpQ (currentEntry s).flt) →
    ∃ t : State, Sys2Proof.core.run l.length s = .next t ∧
      t = { s with cmpQ := t.cmpQ, pins := t.pins, stimulus := [], events := t.events } ∧ gates t = gates s

/-! ## Rules of the whole machine -/

/-- R21: the mode changes from Starting to Running only by FSTEP_LAST and back only by RESET; its reset value is
Starting. -/
def Obligations.ModeChangesOnlyByItsTwoWriters : Prop :=
  State.reset.mode = .starting ∧
  ∀ s t : State, step s = .next t →
    (s.mode = .starting → t.mode = .running → decode (presentedWord s) = .op .fstepLast) ∧
    (s.mode = .running → t.mode = .starting → decode (presentedWord s) = .op .reset)

/-- R105 and R49: the step is written only by FSTEP and FSTEP_LAST, in Starting, and by ZCADV, in Running, each by one
increment modulo 6 (and by RESET); the mode only by FSTEP_LAST (and RESET). -/
def Obligations.StepIsWrittenOnlyByItsOwners : Prop :=
  ∀ (s t : State) (i : Instr), step s = .next t → decode (presentedWord s) = .op i →
    (i = .fstep ∨ i = .fstepLast → s.mode = .starting ∧ t.step.toNat = (s.step.toNat + 1) % 6) ∧
    (i = .zcadv → s.mode = .running ∧ t.step.toNat = (s.step.toNat + 1) % 6) ∧
    (i ∉ [Instr.reset, .fstep, .fstepLast, .zcadv] → t.step = s.step) ∧
    (i ∉ [Instr.reset, .fstepLast] → t.mode = s.mode)

/-- R154 (60_exceptions.md section 4): without reset, Starting performs only HOLD, WAIT, FSTEP and FSTEP_LAST, Running only
RUN_IDLE, ZCDET and ZCADV, and in Running the ramp registers are frozen. -/
def Obligations.EachModePerformsOnlyItsOperations : Prop :=
  ∀ (s t : State) (i : Instr), step s = .next t → decode (presentedWord s) = .op i → i ∈ coreOps →
    i ≠ .reset →
    (s.mode = .starting → i ∈ startingOps) ∧
    (s.mode = .running → i ∈ runningOps ∧ t.dly = s.dly ∧ t.cnt = s.cnt)

/-- R43: no operation, input or reset changes the ROM (nor any other parameter). -/
def Obligations.ParametersAndRomNeverChange : Prop :=
  (∀ (i : Instr) (s t : State), exec i s = .next t →
    t.cfg = s.cfg ∧ ∀ a : Nat, memRead t.cfg a = memRead s.cfg a) ∧
  ∀ s t : State, step s = .next t → t.cfg = s.cfg ∧ ∀ a : Nat, memRead t.cfg a = memRead s.cfg a

/-- 45_throttle_neighbour.md: the neighbour and CORE share no state. An operation of CORE leaves the duty (RESET too: the
model's reading, log 11) and a request changes nothing but the duty and the neighbour's event list. -/
def Obligations.CoreAndNeighbourShareNoState : Prop :=
  ∀ (i : Instr) (s t : State), exec i s = .next t →
    (i ∈ coreOps → t.duty = s.duty ∧ t.thrEvents = s.thrEvents) ∧
    (i ∈ throttleOps → t = { s with duty := t.duty, thrEvents := t.thrEvents })

/-- R134 (45_throttle_neighbour.md): THR_INC and THR_DEC commute with every CORE operation, and no CORE operation writes the
duty. For RESET both clauses rest on the model's reading (log 11, DEDUCED) that it leaves the duty, against the sentence of
R166 that the duty resets to DUTY_RESET. -/
def Obligations.ThrottleCommutesWithEveryCoreOperation : Prop :=
  (∀ (i j : Instr) (s t u : State), i ∈ coreOps → j ∈ [Instr.thrInc, .thrDec] →
    exec i s = .next t → exec j s = .next u →
    ∃ w : State, exec j t = .next w ∧ exec i u = .next w) ∧
  ∀ (i : Instr) (s t : State), i ∈ coreOps → exec i s = .next t → t.duty = s.duty

/-! ## Invariants -/

/-- The reset state meets I1 to I6 of R29 and the neighbour's bounds of R130. -/
def Obligations.ResetStateMeetsTheInvariants : Prop := CoreInv State.reset ∧ DutyInBounds State.reset

/-- The spec's own inference R29: every step keeps I1 to I6, from every state that meets them, reachable or not, under
every input and every admissible configuration. -/
def Obligations.StepKeepsTheReachableInvariants : Prop :=
  ∀ s t : State, CoreInv s → step s = .next t → CoreInv t

/-- A clock edge with rst = 1 puts a state of any kind, reachable or not, into one that meets I1 to I6 of R29. -/
def Obligations.ResetEdgeEstablishesTheInvariants : Prop :=
  ∀ (s : State) (p : Pins), nextStimulus s = .edge p → p.rst = true → Admissible s.cfg →
    ∃ t : State, step s = .next t ∧ CoreInv t

/-- The spec's own inference in R130: every step keeps MIN_DUTY <= duty <= MAX_DUTY. -/
def Obligations.StepKeepsTheDutyBounds : Prop :=
  ∀ s t : State, DutyInBounds s → step s = .next t → DutyInBounds t

/-- The spec's own inference I7 of R29: with a valid table, no switch is on while not energized, and while energized
exactly one high-side and one low-side switch on two distinct phases, the monitored phase being the third. -/
def Obligations.EnergizedPatternIsSafe : Prop :=
  ∀ s : State, ValidTable s.cfg.table →
    (s.en = false → gates s = 0b000000#6) ∧
    (s.en = true → AssertsOnePattern s ∧ switchCount (gates s) = 2)

/-- The natural numbers that stand for the DW-bit registers fit DW bits in every state that meets I5 (log 10). -/
def Obligations.DelaysFitTheirWidth : Prop :=
  ∀ s : State, CoreInv s → Admissible s.cfg → s.dly < 2 ^ s.cfg.dw ∧ s.cnt < 2 ^ s.cfg.dw

/-! ## The table -/

/-- The model's TABLE_REF, its ROM words, its gate vectors, and that it is valid. The six entries are those the spec prints
in R84 (40_commutation_table.md section 4) and marks as general knowledge (K1): PRESUMED, log 2. -/
def Obligations.ReferenceTableContents : Prop :=
  ValidTable tableRef ∧
  tableRef.toList =
    [⟨.U, .V, .W, .falling⟩, ⟨.U, .W, .V, .rising⟩, ⟨.V, .W, .U, .falling⟩,
     ⟨.V, .U, .W, .rising⟩, ⟨.W, .U, .V, .falling⟩, ⟨.W, .V, .U, .rising⟩] ∧
  tableRef.toList.map encode7 = [0x0C#7, 0x13#7, 0x30#7, 0x25#7, 0x42#7, 0x49#7] ∧
  tableRef.toList.map (fun e => gateDecode e.hi e.lo) =
    [0x24#6, 0x21#6, 0x09#6, 0x18#6, 0x12#6, 0x06#6]

/-- The spec's own inferences R83 (a) to (d): in every valid table each phase floats, is high and is low in exactly two
entries; no phase goes directly from one side to the other between successive entries; six increments return to the
step. -/
def Obligations.ValidTableFloatsEachPhaseTwice : Prop :=
  (∀ t : Table, ValidTable t → ∀ p : Phase,
    (t.toList.countP fun e => e.flt == p) = 2 ∧ (t.toList.countP fun e => e.hi == p) = 2 ∧
    (t.toList.countP fun e => e.lo == p) = 2) ∧
  (∀ t : Table, ValidTable t → ∀ s : Fin 6,
    t[mod6 (inc6 s)].hi ≠ t[s].lo ∧ t[mod6 (inc6 s)].lo ≠ t[s].hi) ∧
  ∀ s < 6, inc6^[6] s = s

/-- R117 (42_commutation_controller.md section 6): from any state, six consecutive handlers assert each of the six
DrivePatterns exactly once and bring the step back. The handlers are chained by exec with no ZCDET between them, and from any
state, in Starting or with nothing pending too, where the select vector never chooses ZCADV: what exec does there is the
model's choice (log 15, DESIGN CHOICE). -/
def Obligations.RevolutionAssertsEveryPatternOnce : Prop :=
  ∀ s : State, ValidTable s.cfg.table →
    (advances 6 s).length = 6 ∧ ((advances 6 s).map gates).Nodup ∧
    (∀ hi lo : Phase, hi ≠ lo → gateDecode hi lo ∈ (advances 6 s).map gates) ∧
    (s.step.toNat < 6 → ∃ t : State, (advances 6 s).getLast? = some t ∧ t.step = s.step)

/-- The spec's own inference R180: with a valid table every advance of an energized bridge turns exactly one switch off
and exactly one on, and no phase goes directly from one side to the other. Said of exec on every state, also on one whose select
vector chooses another operation: there it is the model's choice (log 15, DESIGN CHOICE). -/
def Obligations.AdvanceTurnsOneSwitchOffAndOneOn : Prop :=
  ∀ (s t : State) (i : Instr), ValidTable s.cfg.table → s.en = true →
    i ∈ [Instr.fstep, .fstepLast, .zcadv] → exec i s = .next t →
    switchCount (gates s &&& ~~~(gates t)) = 1 ∧ switchCount (gates t &&& ~~~(gates s)) = 1 ∧
    ∀ p : Phase, ¬ (p ∈ highPhases (gates s) ∧ p ∈ lowPhases (gates t)) ∧
      ¬ (p ∈ lowPhases (gates s) ∧ p ∈ highPhases (gates t))

/-! ## The startup ramp -/

/-- R91: `next_delay` is a test on the delay just waited; it returns a smaller delay above the floor, never wraps, and
decides what a tick does: continue with that delay, or complete. -/
def Obligations.NextDelayDecidesTheTick : Prop :=
  (∀ (c : Cfg) (d : Nat), d ≤ c.delayFloor → nextDelay c d = none) ∧
  (∀ (c : Cfg) (d : Nat), c.delayFloor < d → nextDelay c d = some (d - c.delayDec)) ∧
  (∀ (c : Cfg) (d d' : Nat), 1 ≤ c.delayDec → nextDelay c d = some d' → d' < d) ∧
  ∀ (s : State) (p : Pins), Admissible s.cfg → s.mode = .starting → s.cnt = 0 → nextStimulus s = .edge p →
    p.rst = false →
    ∃ t : State, step s = .next t ∧ t.step.toNat = (s.step.toNat + 1) % 6 ∧
      (nextDelay s.cfg s.dly = none → t.mode = .running ∧ t.dly = s.dly) ∧
      (∀ d, nextDelay s.cfg s.dly = some d → t.mode = .starting ∧ t.dly = d ∧ t.cnt = d)

/-- The spec's own inferences R96 to R98: for every admissible configuration and all comparator inputs, with a time unit at
every clock edge, the ramp from the reset state takes exactly T + K + 1 clock edges: T WAITs, K FSTEPs and one
FSTEP_LAST; it ends in Running, armed and energized, K + 1 steps further, with the final delay at or below the floor. -/
def Obligations.RampReachesRunningOnSchedule : Prop :=
  ∀ (s : State) (l : List Pins), Admissible s.cfg → s.stimulus = l.map Stimulus.edge →
    (∀ p ∈ l, p.rst = false ∧ p.tu = true) → l.length = rampUnits s.cfg + rampSteps s.cfg + 1 →
    (∃ t : State, Sys2Proof.core.run l.length (resetCore s) = .next t ∧
      t.mode = .running ∧ t.armed = true ∧ t.zcPend = false ∧ t.en = true ∧ t.cnt = 0 ∧
      t.dly = rampDelay s.cfg (rampSteps s.cfg) ∧ t.dly ≤ s.cfg.delayFloor ∧
      t.step.toNat = (s.cfg.stepReset + (rampSteps s.cfg + 1)) % 6) ∧
    countOp .wait (selTrace l.length (resetCore s)) = rampUnits s.cfg ∧
    countOp .fstep (selTrace l.length (resetCore s)) = rampSteps s.cfg ∧
    countOp .fstepLast (selTrace l.length (resetCore s)) = 1

/-- The spec's own inferences R96 and R98: whatever the time-unit strobe and the comparators do, no run of at most T + K
clock edges without reset leaves Starting. -/
def Obligations.RampNeverEndsEarly : Prop :=
  ∀ (s : State) (l : List Pins), Admissible s.cfg → s.stimulus = l.map Stimulus.edge →
    (∀ p ∈ l, p.rst = false) → l.length ≤ rampUnits s.cfg + rampSteps s.cfg →
    ∃ t : State, Sys2Proof.core.run l.length (resetCore s) = .next t ∧ t.mode = .starting
end

