-- ==== Sys2Proof/Laws/State.lean ====
section
/-! SUPPORT. One lemma per field per named update of the state, so that no later proof unfolds a record update. -/

namespace Sys2Proof.Machine

/-! ## sampleEdge -/

@[simp] theorem sampleEdge_mode (s : State) : (sampleEdge s).mode = s.mode := rfl
@[simp] theorem sampleEdge_step (s : State) : (sampleEdge s).step = s.step := rfl
@[simp] theorem sampleEdge_en (s : State) : (sampleEdge s).en = s.en := rfl
@[simp] theorem sampleEdge_dly (s : State) : (sampleEdge s).dly = s.dly := rfl
@[simp] theorem sampleEdge_cnt (s : State) : (sampleEdge s).cnt = s.cnt := rfl
@[simp] theorem sampleEdge_armed (s : State) : (sampleEdge s).armed = s.armed := rfl
@[simp] theorem sampleEdge_zcPend (s : State) : (sampleEdge s).zcPend = s.zcPend := rfl
@[simp] theorem sampleEdge_cmpQ (s : State) : (sampleEdge s).cmpQ = cmpOf s.pins := rfl
@[simp] theorem sampleEdge_duty (s : State) : (sampleEdge s).duty = s.duty := rfl
@[simp] theorem sampleEdge_cfg (s : State) : (sampleEdge s).cfg = s.cfg := rfl
@[simp] theorem sampleEdge_pins (s : State) : (sampleEdge s).pins = s.pins := rfl
@[simp] theorem sampleEdge_stimulus (s : State) : (sampleEdge s).stimulus = s.stimulus := rfl
@[simp] theorem sampleEdge_draws (s : State) : (sampleEdge s).draws = s.draws := rfl
@[simp] theorem sampleEdge_events (s : State) : (sampleEdge s).events = [] := rfl
@[simp] theorem sampleEdge_thrEvents (s : State) : (sampleEdge s).thrEvents = s.thrEvents := rfl

/-! ## resetCore -/

@[simp] theorem resetCore_mode (s : State) : (resetCore s).mode = .starting := rfl
@[simp] theorem resetCore_step (s : State) : (resetCore s).step = BitVec.ofNat 3 s.cfg.stepReset := rfl
@[simp] theorem resetCore_en (s : State) : (resetCore s).en = false := rfl
@[simp] theorem resetCore_dly (s : State) : (resetCore s).dly = s.cfg.delayInit := rfl
@[simp] theorem resetCore_cnt (s : State) : (resetCore s).cnt = s.cfg.delayInit := rfl
@[simp] theorem resetCore_armed (s : State) : (resetCore s).armed = false := rfl
@[simp] theorem resetCore_zcPend (s : State) : (resetCore s).zcPend = false := rfl
@[simp] theorem resetCore_cmpQ (s : State) : (resetCore s).cmpQ = 0b000#3 := rfl
@[simp] theorem resetCore_duty (s : State) : (resetCore s).duty = s.duty := rfl
@[simp] theorem resetCore_cfg (s : State) : (resetCore s).cfg = s.cfg := rfl
@[simp] theorem resetCore_pins (s : State) : (resetCore s).pins = s.pins := rfl
@[simp] theorem resetCore_stimulus (s : State) : (resetCore s).stimulus = s.stimulus := rfl
@[simp] theorem resetCore_draws (s : State) : (resetCore s).draws = s.draws := rfl
@[simp] theorem resetCore_events (s : State) : (resetCore s).events = [] := rfl
@[simp] theorem resetCore_thrEvents (s : State) : (resetCore s).thrEvents = s.thrEvents := rfl

/-! ## issueSetPattern -/

@[simp] theorem issueSetPattern_mode (e : CommutationEntry) (s : State) : (issueSetPattern e s).mode = s.mode := rfl
@[simp] theorem issueSetPattern_step (e : CommutationEntry) (s : State) : (issueSetPattern e s).step = s.step := rfl
@[simp] theorem issueSetPattern_en (e : CommutationEntry) (s : State) : (issueSetPattern e s).en = s.en := rfl
@[simp] theorem issueSetPattern_dly (e : CommutationEntry) (s : State) : (issueSetPattern e s).dly = s.dly := rfl
@[simp] theorem issueSetPattern_cnt (e : CommutationEntry) (s : State) : (issueSetPattern e s).cnt = s.cnt := rfl
@[simp] theorem issueSetPattern_armed (e : CommutationEntry) (s : State) :
    (issueSetPattern e s).armed = s.armed :=
  rfl
@[simp] theorem issueSetPattern_zcPend (e : CommutationEntry) (s : State) :
    (issueSetPattern e s).zcPend = s.zcPend :=
  rfl
@[simp] theorem issueSetPattern_cmpQ (e : CommutationEntry) (s : State) : (issueSetPattern e s).cmpQ = s.cmpQ := rfl
@[simp] theorem issueSetPattern_duty (e : CommutationEntry) (s : State) : (issueSetPattern e s).duty = s.duty := rfl
@[simp] theorem issueSetPattern_cfg (e : CommutationEntry) (s : State) : (issueSetPattern e s).cfg = s.cfg := rfl
@[simp] theorem issueSetPattern_pins (e : CommutationEntry) (s : State) : (issueSetPattern e s).pins = s.pins := rfl
@[simp] theorem issueSetPattern_stimulus (e : CommutationEntry) (s : State) :
    (issueSetPattern e s).stimulus = s.stimulus :=
  rfl
@[simp] theorem issueSetPattern_draws (e : CommutationEntry) (s : State) :
    (issueSetPattern e s).draws = s.draws :=
  rfl
@[simp] theorem issueSetPattern_events (e : CommutationEntry) (s : State) :
    (issueSetPattern e s).events = s.events ++ [.setPattern e.hi e.lo] :=
  rfl
@[simp] theorem issueSetPattern_thrEvents (e : CommutationEntry) (s : State) :
    (issueSetPattern e s).thrEvents = s.thrEvents :=
  rfl

/-! ## issueArm -/

@[simp] theorem issueArm_mode (e : CommutationEntry) (s : State) : (issueArm e s).mode = s.mode := rfl
@[simp] theorem issueArm_step (e : CommutationEntry) (s : State) : (issueArm e s).step = s.step := rfl
@[simp] theorem issueArm_en (e : CommutationEntry) (s : State) : (issueArm e s).en = s.en := rfl
@[simp] theorem issueArm_dly (e : CommutationEntry) (s : State) : (issueArm e s).dly = s.dly := rfl
@[simp] theorem issueArm_cnt (e : CommutationEntry) (s : State) : (issueArm e s).cnt = s.cnt := rfl
@[simp] theorem issueArm_armed (e : CommutationEntry) (s : State) :
    (issueArm e s).armed = if s.mode = .running then true else s.armed :=
  rfl
@[simp] theorem issueArm_zcPend (e : CommutationEntry) (s : State) : (issueArm e s).zcPend = s.zcPend := rfl
@[simp] theorem issueArm_cmpQ (e : CommutationEntry) (s : State) : (issueArm e s).cmpQ = s.cmpQ := rfl
@[simp] theorem issueArm_duty (e : CommutationEntry) (s : State) : (issueArm e s).duty = s.duty := rfl
@[simp] theorem issueArm_cfg (e : CommutationEntry) (s : State) : (issueArm e s).cfg = s.cfg := rfl
@[simp] theorem issueArm_pins (e : CommutationEntry) (s : State) : (issueArm e s).pins = s.pins := rfl
@[simp] theorem issueArm_stimulus (e : CommutationEntry) (s : State) : (issueArm e s).stimulus = s.stimulus := rfl
@[simp] theorem issueArm_draws (e : CommutationEntry) (s : State) : (issueArm e s).draws = s.draws := rfl
@[simp] theorem issueArm_events (e : CommutationEntry) (s : State) :
    (issueArm e s).events = s.events ++ [.arm e.flt e.pol] :=
  rfl
@[simp] theorem issueArm_thrEvents (e : CommutationEntry) (s : State) : (issueArm e s).thrEvents = s.thrEvents := rfl

/-! ## applyEntry -/

@[simp] theorem applyEntry_mode (s : State) : (applyEntry s).mode = s.mode := rfl
@[simp] theorem applyEntry_step (s : State) : (applyEntry s).step = advancedStep s := rfl
@[simp] theorem applyEntry_en (s : State) : (applyEntry s).en = true := rfl
@[simp] theorem applyEntry_dly (s : State) : (applyEntry s).dly = s.dly := rfl
@[simp] theorem applyEntry_cnt (s : State) : (applyEntry s).cnt = s.cnt := rfl
@[simp] theorem applyEntry_armed (s : State) :
    (applyEntry s).armed = if s.mode = .running then true else s.armed :=
  rfl
@[simp] theorem applyEntry_zcPend (s : State) : (applyEntry s).zcPend = s.zcPend := rfl
@[simp] theorem applyEntry_cmpQ (s : State) : (applyEntry s).cmpQ = s.cmpQ := rfl
@[simp] theorem applyEntry_duty (s : State) : (applyEntry s).duty = s.duty := rfl
@[simp] theorem applyEntry_cfg (s : State) : (applyEntry s).cfg = s.cfg := rfl
@[simp] theorem applyEntry_pins (s : State) : (applyEntry s).pins = s.pins := rfl
@[simp] theorem applyEntry_stimulus (s : State) : (applyEntry s).stimulus = s.stimulus := rfl
@[simp] theorem applyEntry_draws (s : State) : (applyEntry s).draws = s.draws := rfl
@[simp] theorem applyEntry_events (s : State) :
    (applyEntry s).events = s.events ++ [.setPattern (advancedEntry s).hi (advancedEntry s).lo] ++
      [.arm (advancedEntry s).flt (advancedEntry s).pol] :=
  rfl
@[simp] theorem applyEntry_thrEvents (s : State) : (applyEntry s).thrEvents = s.thrEvents := rfl

/-! ## countDown -/

@[simp] theorem countDown_mode (s : State) : (countDown s).mode = s.mode := rfl
@[simp] theorem countDown_step (s : State) : (countDown s).step = s.step := rfl
@[simp] theorem countDown_en (s : State) : (countDown s).en = s.en := rfl
@[simp] theorem countDown_dly (s : State) : (countDown s).dly = s.dly := rfl
@[simp] theorem countDown_cnt (s : State) : (countDown s).cnt = s.cnt - 1 := rfl
@[simp] theorem countDown_armed (s : State) : (countDown s).armed = s.armed := rfl
@[simp] theorem countDown_zcPend (s : State) : (countDown s).zcPend = s.zcPend := rfl
@[simp] theorem countDown_cmpQ (s : State) : (countDown s).cmpQ = s.cmpQ := rfl
@[simp] theorem countDown_duty (s : State) : (countDown s).duty = s.duty := rfl
@[simp] theorem countDown_cfg (s : State) : (countDown s).cfg = s.cfg := rfl
@[simp] theorem countDown_pins (s : State) : (countDown s).pins = s.pins := rfl
@[simp] theorem countDown_stimulus (s : State) : (countDown s).stimulus = s.stimulus := rfl
@[simp] theorem countDown_draws (s : State) : (countDown s).draws = s.draws := rfl
@[simp] theorem countDown_events (s : State) : (countDown s).events = s.events := rfl
@[simp] theorem countDown_thrEvents (s : State) : (countDown s).thrEvents = s.thrEvents := rfl

/-! ## loadNextWait -/

@[simp] theorem loadNextWait_mode (s : State) : (loadNextWait s).mode = s.mode := rfl
@[simp] theorem loadNextWait_step (s : State) : (loadNextWait s).step = s.step := rfl
@[simp] theorem loadNextWait_en (s : State) : (loadNextWait s).en = s.en := rfl
@[simp] theorem loadNextWait_dly (s : State) : (loadNextWait s).dly = decrementedDelay s := rfl
@[simp] theorem loadNextWait_cnt (s : State) : (loadNextWait s).cnt = decrementedDelay s := rfl
@[simp] theorem loadNextWait_armed (s : State) : (loadNextWait s).armed = s.armed := rfl
@[simp] theorem loadNextWait_zcPend (s : State) : (loadNextWait s).zcPend = s.zcPend := rfl
@[simp] theorem loadNextWait_cmpQ (s : State) : (loadNextWait s).cmpQ = s.cmpQ := rfl
@[simp] theorem loadNextWait_duty (s : State) : (loadNextWait s).duty = s.duty := rfl
@[simp] theorem loadNextWait_cfg (s : State) : (loadNextWait s).cfg = s.cfg := rfl
@[simp] theorem loadNextWait_pins (s : State) : (loadNextWait s).pins = s.pins := rfl
@[simp] theorem loadNextWait_stimulus (s : State) : (loadNextWait s).stimulus = s.stimulus := rfl
@[simp] theorem loadNextWait_draws (s : State) : (loadNextWait s).draws = s.draws := rfl
@[simp] theorem loadNextWait_events (s : State) : (loadNextWait s).events = s.events := rfl
@[simp] theorem loadNextWait_thrEvents (s : State) : (loadNextWait s).thrEvents = s.thrEvents := rfl

/-! ## transitionToRunning -/

@[simp] theorem transitionToRunning_mode (s : State) : (transitionToRunning s).mode = .running := rfl
@[simp] theorem transitionToRunning_step (s : State) : (transitionToRunning s).step = s.step := rfl
@[simp] theorem transitionToRunning_en (s : State) : (transitionToRunning s).en = s.en := rfl
@[simp] theorem transitionToRunning_dly (s : State) : (transitionToRunning s).dly = s.dly := rfl
@[simp] theorem transitionToRunning_cnt (s : State) : (transitionToRunning s).cnt = s.cnt := rfl
@[simp] theorem transitionToRunning_armed (s : State) : (transitionToRunning s).armed = true := rfl
@[simp] theorem transitionToRunning_zcPend (s : State) : (transitionToRunning s).zcPend = s.zcPend := rfl
@[simp] theorem transitionToRunning_cmpQ (s : State) : (transitionToRunning s).cmpQ = s.cmpQ := rfl
@[simp] theorem transitionToRunning_duty (s : State) : (transitionToRunning s).duty = s.duty := rfl
@[simp] theorem transitionToRunning_cfg (s : State) : (transitionToRunning s).cfg = s.cfg := rfl
@[simp] theorem transitionToRunning_pins (s : State) : (transitionToRunning s).pins = s.pins := rfl
@[simp] theorem transitionToRunning_stimulus (s : State) : (transitionToRunning s).stimulus = s.stimulus := rfl
@[simp] theorem transitionToRunning_draws (s : State) : (transitionToRunning s).draws = s.draws := rfl
@[simp] theorem transitionToRunning_events (s : State) :
    (transitionToRunning s).events = s.events ++ [.arm (currentEntry s).flt (currentEntry s).pol] :=
  rfl
@[simp] theorem transitionToRunning_thrEvents (s : State) : (transitionToRunning s).thrEvents = s.thrEvents := rfl

/-! ## requestZeroCrossing -/

@[simp] theorem requestZeroCrossing_mode (s : State) : (requestZeroCrossing s).mode = s.mode := rfl
@[simp] theorem requestZeroCrossing_step (s : State) : (requestZeroCrossing s).step = s.step := rfl
@[simp] theorem requestZeroCrossing_en (s : State) : (requestZeroCrossing s).en = s.en := rfl
@[simp] theorem requestZeroCrossing_dly (s : State) : (requestZeroCrossing s).dly = s.dly := rfl
@[simp] theorem requestZeroCrossing_cnt (s : State) : (requestZeroCrossing s).cnt = s.cnt := rfl
@[simp] theorem requestZeroCrossing_armed (s : State) : (requestZeroCrossing s).armed = false := rfl
@[simp] theorem requestZeroCrossing_zcPend (s : State) : (requestZeroCrossing s).zcPend = true := rfl
@[simp] theorem requestZeroCrossing_cmpQ (s : State) : (requestZeroCrossing s).cmpQ = s.cmpQ := rfl
@[simp] theorem requestZeroCrossing_duty (s : State) : (requestZeroCrossing s).duty = s.duty := rfl
@[simp] theorem requestZeroCrossing_cfg (s : State) : (requestZeroCrossing s).cfg = s.cfg := rfl
@[simp] theorem requestZeroCrossing_pins (s : State) : (requestZeroCrossing s).pins = s.pins := rfl
@[simp] theorem requestZeroCrossing_stimulus (s : State) : (requestZeroCrossing s).stimulus = s.stimulus := rfl
@[simp] theorem requestZeroCrossing_draws (s : State) : (requestZeroCrossing s).draws = s.draws := rfl
@[simp] theorem requestZeroCrossing_events (s : State) : (requestZeroCrossing s).events = s.events := rfl
@[simp] theorem requestZeroCrossing_thrEvents (s : State) : (requestZeroCrossing s).thrEvents = s.thrEvents := rfl

/-! ## onZeroCrossingEvent -/

@[simp] theorem onZeroCrossingEvent_mode (s : State) : (onZeroCrossingEvent s).mode = s.mode := rfl
@[simp] theorem onZeroCrossingEvent_step (s : State) : (onZeroCrossingEvent s).step = advancedStep s := rfl
@[simp] theorem onZeroCrossingEvent_en (s : State) : (onZeroCrossingEvent s).en = true := rfl
@[simp] theorem onZeroCrossingEvent_dly (s : State) : (onZeroCrossingEvent s).dly = s.dly := rfl
@[simp] theorem onZeroCrossingEvent_cnt (s : State) : (onZeroCrossingEvent s).cnt = s.cnt := rfl
@[simp] theorem onZeroCrossingEvent_armed (s : State) :
    (onZeroCrossingEvent s).armed = if s.mode = .running then true else s.armed :=
  rfl
@[simp] theorem onZeroCrossingEvent_zcPend (s : State) : (onZeroCrossingEvent s).zcPend = false := rfl
@[simp] theorem onZeroCrossingEvent_cmpQ (s : State) : (onZeroCrossingEvent s).cmpQ = s.cmpQ := rfl
@[simp] theorem onZeroCrossingEvent_duty (s : State) : (onZeroCrossingEvent s).duty = s.duty := rfl
@[simp] theorem onZeroCrossingEvent_cfg (s : State) : (onZeroCrossingEvent s).cfg = s.cfg := rfl
@[simp] theorem onZeroCrossingEvent_pins (s : State) : (onZeroCrossingEvent s).pins = s.pins := rfl
@[simp] theorem onZeroCrossingEvent_stimulus (s : State) : (onZeroCrossingEvent s).stimulus = s.stimulus := rfl
@[simp] theorem onZeroCrossingEvent_draws (s : State) : (onZeroCrossingEvent s).draws = s.draws := rfl
@[simp] theorem onZeroCrossingEvent_events (s : State) :
    (onZeroCrossingEvent s).events = s.events ++ [.setPattern (advancedEntry s).hi (advancedEntry s).lo] ++
      [.arm (advancedEntry s).flt (advancedEntry s).pol] :=
  rfl
@[simp] theorem onZeroCrossingEvent_thrEvents (s : State) : (onZeroCrossingEvent s).thrEvents = s.thrEvents := rfl

/-! ## noRequest -/

@[simp] theorem noRequest_mode (s : State) : (noRequest s).mode = s.mode := rfl
@[simp] theorem noRequest_step (s : State) : (noRequest s).step = s.step := rfl
@[simp] theorem noRequest_en (s : State) : (noRequest s).en = s.en := rfl
@[simp] theorem noRequest_dly (s : State) : (noRequest s).dly = s.dly := rfl
@[simp] theorem noRequest_cnt (s : State) : (noRequest s).cnt = s.cnt := rfl
@[simp] theorem noRequest_armed (s : State) : (noRequest s).armed = s.armed := rfl
@[simp] theorem noRequest_zcPend (s : State) : (noRequest s).zcPend = s.zcPend := rfl
@[simp] theorem noRequest_cmpQ (s : State) : (noRequest s).cmpQ = s.cmpQ := rfl
@[simp] theorem noRequest_duty (s : State) : (noRequest s).duty = s.duty := rfl
@[simp] theorem noRequest_cfg (s : State) : (noRequest s).cfg = s.cfg := rfl
@[simp] theorem noRequest_pins (s : State) : (noRequest s).pins = s.pins := rfl
@[simp] theorem noRequest_stimulus (s : State) : (noRequest s).stimulus = s.stimulus := rfl
@[simp] theorem noRequest_draws (s : State) : (noRequest s).draws = s.draws := rfl
@[simp] theorem noRequest_events (s : State) : (noRequest s).events = s.events := rfl
@[simp] theorem noRequest_thrEvents (s : State) : (noRequest s).thrEvents = [] := rfl

/-! ## increase -/

@[simp] theorem increase_mode (s : State) : (increase s).mode = s.mode := by unfold increase; split <;> rfl
@[simp] theorem increase_step (s : State) : (increase s).step = s.step := by unfold increase; split <;> rfl
@[simp] theorem increase_en (s : State) : (increase s).en = s.en := by unfold increase; split <;> rfl
@[simp] theorem increase_dly (s : State) : (increase s).dly = s.dly := by unfold increase; split <;> rfl
@[simp] theorem increase_cnt (s : State) : (increase s).cnt = s.cnt := by unfold increase; split <;> rfl
@[simp] theorem increase_armed (s : State) : (increase s).armed = s.armed := by unfold increase; split <;> rfl
@[simp] theorem increase_zcPend (s : State) : (increase s).zcPend = s.zcPend := by unfold increase; split <;> rfl
@[simp] theorem increase_cmpQ (s : State) : (increase s).cmpQ = s.cmpQ := by unfold increase; split <;> rfl
@[simp] theorem increase_cfg (s : State) : (increase s).cfg = s.cfg := by unfold increase; split <;> rfl
@[simp] theorem increase_pins (s : State) : (increase s).pins = s.pins := by unfold increase; split <;> rfl
@[simp] theorem increase_stimulus (s : State) :
    (increase s).stimulus = s.stimulus :=
  by unfold increase; split <;> rfl
@[simp] theorem increase_draws (s : State) : (increase s).draws = s.draws := by unfold increase; split <;> rfl
@[simp] theorem increase_events (s : State) : (increase s).events = s.events := by unfold increase; split <;> rfl

/-! ## decrease -/

@[simp] theorem decrease_mode (s : State) : (decrease s).mode = s.mode := by unfold decrease; split <;> rfl
@[simp] theorem decrease_step (s : State) : (decrease s).step = s.step := by unfold decrease; split <;> rfl
@[simp] theorem decrease_en (s : State) : (decrease s).en = s.en := by unfold decrease; split <;> rfl
@[simp] theorem decrease_dly (s : State) : (decrease s).dly = s.dly := by unfold decrease; split <;> rfl
@[simp] theorem decrease_cnt (s : State) : (decrease s).cnt = s.cnt := by unfold decrease; split <;> rfl
@[simp] theorem decrease_armed (s : State) : (decrease s).armed = s.armed := by unfold decrease; split <;> rfl
@[simp] theorem decrease_zcPend (s : State) : (decrease s).zcPend = s.zcPend := by unfold decrease; split <;> rfl
@[simp] theorem decrease_cmpQ (s : State) : (decrease s).cmpQ = s.cmpQ := by unfold decrease; split <;> rfl
@[simp] theorem decrease_cfg (s : State) : (decrease s).cfg = s.cfg := by unfold decrease; split <;> rfl
@[simp] theorem decrease_pins (s : State) : (decrease s).pins = s.pins := by unfold decrease; split <;> rfl
@[simp] theorem decrease_stimulus (s : State) :
    (decrease s).stimulus = s.stimulus :=
  by unfold decrease; split <;> rfl
@[simp] theorem decrease_draws (s : State) : (decrease s).draws = s.draws := by unfold decrease; split <;> rfl
@[simp] theorem decrease_events (s : State) : (decrease s).events = s.events := by unfold decrease; split <;> rfl

/-! ## takeStimulus -/

@[simp] theorem takeStimulus_mode (s : State) :
    (takeStimulus s).mode = s.mode :=
  by unfold takeStimulus; split <;> rfl
@[simp] theorem takeStimulus_step (s : State) :
    (takeStimulus s).step = s.step :=
  by unfold takeStimulus; split <;> rfl
@[simp] theorem takeStimulus_en (s : State) : (takeStimulus s).en = s.en := by unfold takeStimulus; split <;> rfl
@[simp] theorem takeStimulus_dly (s : State) : (takeStimulus s).dly = s.dly := by unfold takeStimulus; split <;> rfl
@[simp] theorem takeStimulus_cnt (s : State) : (takeStimulus s).cnt = s.cnt := by unfold takeStimulus; split <;> rfl
@[simp] theorem takeStimulus_armed (s : State) :
    (takeStimulus s).armed = s.armed :=
  by unfold takeStimulus; split <;> rfl
@[simp] theorem takeStimulus_zcPend (s : State) :
    (takeStimulus s).zcPend = s.zcPend :=
  by unfold takeStimulus; split <;> rfl
@[simp] theorem takeStimulus_cmpQ (s : State) :
    (takeStimulus s).cmpQ = s.cmpQ :=
  by unfold takeStimulus; split <;> rfl
@[simp] theorem takeStimulus_duty (s : State) :
    (takeStimulus s).duty = s.duty :=
  by unfold takeStimulus; split <;> rfl
@[simp] theorem takeStimulus_cfg (s : State) : (takeStimulus s).cfg = s.cfg := by unfold takeStimulus; split <;> rfl
@[simp] theorem takeStimulus_events (s : State) :
    (takeStimulus s).events = s.events :=
  by unfold takeStimulus; split <;> rfl
@[simp] theorem takeStimulus_thrEvents (s : State) :
    (takeStimulus s).thrEvents = s.thrEvents :=
  by unfold takeStimulus; split <;> rfl

end Sys2Proof.Machine
end

