-- ==== Sys2Proof/Laws/Ops.lean ====
section
/-! SUPPORT. For each shared operation and each meaning one lemma that says once everything it can do; later proofs cite
these instead of unfolding the operation. -/

namespace Sys2Proof.Machine

/-! ## Primitives -/

@[simp] theorem mod6_val (s : Nat) : (mod6 s).val = s % 6 := rfl

theorem inc6_lt (s : Nat) : inc6 s < 6 := Nat.mod_lt _ (by decide)

/-- Truncated subtraction is the subtraction of natural numbers. -/
theorem tsub_eq (a b : Nat) : tsub a b = a - b := by
  unfold tsub; split <;> omega

/-- Lookups reduce the step modulo 6 (R42). -/
theorem entryFor_mod (c : Cfg) (s : Nat) : entryFor c (s % 6) = entryFor c s := by
  have h : mod6 (s % 6) = mod6 s := Fin.ext (Nat.mod_mod s 6)
  simp only [entryFor, h]

/-- The advanced step, read back from its three bits, is inc6 of the old one. -/
theorem advancedStep_toNat (s : State) : (advancedStep s).toNat = inc6 s.step.toNat := by
  have h := inc6_lt s.step.toNat
  simp only [advancedStep, BitVec.toNat_ofNat]
  omega

/-- `third` names the phase that is neither of two different ones. -/
theorem third_eq_some {p q r : Phase} : third p q = some r ↔ p ≠ q ∧ r ≠ p ∧ r ≠ q := by
  cases p <;> cases q <;> cases r <;> decide

/-! ## Shared operations -/

theorem thenDo_next {o : StepOutcome} {f : State → State} {t : State} :
    thenDo o f = .next t ↔ ∃ u, o = .next u ∧ t = f u := by
  cases o <;> simp [thenDo, eq_comm]

theorem thenDo_refused {o : StepOutcome} {f : State → State} {r : Refusal} :
    thenDo o f = .refused r ↔ o = .refused r := by
  cases o <;> simp [thenDo]

theorem forceStepAdvance_next {s t : State} :
    forceStepAdvance s = .next t ↔ s.mode = .starting ∧ t = applyEntry s := by
  cases h : s.mode <;> simp [forceStepAdvance, h, eq_comm]

theorem forceStepAdvance_refused {s : State} {r : Refusal} :
    forceStepAdvance s = .refused r ↔ s.mode = .running ∧ r = .forceStepWhileRunning := by
  cases h : s.mode <;> simp [forceStepAdvance, h, eq_comm]

/-- Everything ApplyEntry writes (R81, R109). -/
theorem applyEntry_eq (s : State) :
    applyEntry s =
      { s with
        step := advancedStep s
        en := true
        armed := if s.mode = .running then true else s.armed
        events := s.events ++ [.setPattern (advancedEntry s).hi (advancedEntry s).lo] ++
          [.arm (advancedEntry s).flt (advancedEntry s).pol] } := rfl

theorem nextDelay_none {c : Cfg} {d : Nat} : nextDelay c d = none ↔ d ≤ c.delayFloor := by
  unfold nextDelay; split <;> simp_all

theorem nextDelay_some {c : Cfg} {d d' : Nat} :
    nextDelay c d = some d' ↔ c.delayFloor < d ∧ d' = tsub d c.delayDec := by
  unfold nextDelay; split <;> simp_all [eq_comm]

theorem increase_cases (s : State) :
    (s.duty < s.cfg.maxDuty ∧
      increase s = { s with duty := s.duty + 1, thrEvents := [.setDuty (s.duty + 1)] }) ∨
    (s.cfg.maxDuty ≤ s.duty ∧ increase s = { s with thrEvents := [] }) := by
  unfold increase
  split
  · exact .inl ⟨‹_›, rfl⟩
  · exact .inr ⟨Int.not_lt.mp ‹_›, rfl⟩

theorem decrease_cases (s : State) :
    (s.cfg.minDuty < s.duty ∧
      decrease s = { s with duty := s.duty - 1, thrEvents := [.setDuty (s.duty - 1)] }) ∨
    (s.duty ≤ s.cfg.minDuty ∧ decrease s = { s with thrEvents := [] }) := by
  unfold decrease
  split
  · exact .inl ⟨‹_›, rfl⟩
  · exact .inr ⟨Int.not_lt.mp ‹_›, rfl⟩

/-! ## Meanings -/

theorem execReset_next {s t : State} : execReset s = .next t ↔ t = resetCore s := by
  simp [execReset, eq_comm]

theorem execHold_next {s t : State} : execHold s = .next t ↔ t = sampleEdge s := by
  simp [execHold, eq_comm]

theorem execWait_next {s t : State} : execWait s = .next t ↔ t = countDown (sampleEdge s) := by
  simp [execWait, eq_comm]

theorem execFstep_next {s t : State} :
    execFstep s = .next t ↔ s.mode = .starting ∧ t = loadNextWait (applyEntry (sampleEdge s)) := by
  simp only [execFstep, thenDo_next, forceStepAdvance_next, sampleEdge_mode]
  constructor
  · rintro ⟨u, ⟨h, rfl⟩, rfl⟩; exact ⟨h, rfl⟩
  · rintro ⟨h, rfl⟩; exact ⟨_, ⟨h, rfl⟩, rfl⟩

theorem execFstepLast_next {s t : State} :
    execFstepLast s = .next t ↔ s.mode = .starting ∧ t = transitionToRunning (applyEntry (sampleEdge s)) := by
  simp only [execFstepLast, thenDo_next, forceStepAdvance_next, sampleEdge_mode]
  constructor
  · rintro ⟨u, ⟨h, rfl⟩, rfl⟩; exact ⟨h, rfl⟩
  · rintro ⟨h, rfl⟩; exact ⟨_, ⟨h, rfl⟩, rfl⟩

theorem execRunIdle_next {s t : State} : execRunIdle s = .next t ↔ t = sampleEdge s := by
  simp [execRunIdle, eq_comm]

theorem execZcdet_next {s t : State} :
    execZcdet s = .next t ↔ t = requestZeroCrossing (sampleEdge s) := by
  simp [execZcdet, eq_comm]

theorem execZcadv_next {s t : State} :
    execZcadv s = .next t ↔ t = onZeroCrossingEvent (sampleEdge s) := by
  simp [execZcadv, eq_comm]

theorem execThrInc_next {s t : State} : execThrInc s = .next t ↔ t = increase s := by
  simp [execThrInc, eq_comm]

theorem execThrDec_next {s t : State} : execThrDec s = .next t ↔ t = decrease s := by
  simp [execThrDec, eq_comm]

theorem execThrNone_next {s t : State} : execThrNone s = .next t ↔ t = noRequest s := by
  simp [execThrNone, eq_comm]

/-! ## One step -/

/-- What taking the next stimulus can do. -/
theorem takeStimulus_cases (s : State) :
    (s.stimulus = [] ∧ nextStimulus s = .edge (Config.freePins s.draws) ∧
      takeStimulus s = { s with pins := Config.freePins s.draws, draws := s.draws + 1 }) ∨
    (∃ p rest, s.stimulus = .edge p :: rest ∧ nextStimulus s = .edge p ∧
      takeStimulus s = { s with pins := p, stimulus := rest }) ∨
    (∃ r rest, s.stimulus = .request r :: rest ∧ nextStimulus s = .request r ∧
      takeStimulus s = { s with stimulus := rest }) := by
  cases h : s.stimulus with
  | nil => exact .inl ⟨rfl, by simp [nextStimulus, h], by simp [takeStimulus, h]⟩
  | cons x rest =>
    cases x with
    | edge p => exact .inr (.inl ⟨p, rest, rfl, by simp [nextStimulus, h], by simp [takeStimulus, h]⟩)
    | request r => exact .inr (.inr ⟨r, rest, rfl, by simp [nextStimulus, h], by simp [takeStimulus, h]⟩)

/-- At a clock edge the sampled inputs stand in `pins`. -/
theorem takeStimulus_pins_of_edge {s : State} {p : Pins} (h : nextStimulus s = .edge p) :
    (takeStimulus s).pins = p := by
  rcases takeStimulus_cases s with ⟨-, h', e⟩ | ⟨q, rest, -, h', e⟩ | ⟨r, rest, -, h', e⟩ <;>
    rw [h'] at h <;> cases h <;> rw [e]

/-- A step answers a next state exactly when the parameters are admissible, the presented word decodes, and the
operation answers that state. -/
theorem step_next {s t : State} :
    step s = .next t ↔
      parameterRefusal s = none ∧ ∃ i, decode (presentedWord s) = .op i ∧ exec i (takeStimulus s) = .next t := by
  unfold step
  cases parameterRefusal s with
  | some r => simp
  | none => cases decode (presentedWord s) <;> simp

theorem parameterRefusal_of_edge {s : State} {p : Pins} (h : nextStimulus s = .edge p) :
    parameterRefusal s = none ↔ Admissible s.cfg := by
  unfold parameterRefusal
  rw [h]
  show (if Admissible s.cfg then none else some Refusal.inadmissibleConfiguration) = none ↔ Admissible s.cfg
  constructor
  · intro e
    by_contra hc
    rw [if_neg hc] at e
    cases e
  · exact fun hc => if_pos hc

theorem parameterRefusal_of_request {s : State} {r : ThrReq} (h : nextStimulus s = .request r) :
    parameterRefusal s = none ↔ ThrottleAdmissible s.cfg := by
  unfold parameterRefusal
  rw [h]
  show (if ThrottleAdmissible s.cfg then none else some Refusal.inadmissibleThrottleParameters) = none ↔ ThrottleAdmissible s.cfg
  constructor
  · intro e
    by_contra hc
    rw [if_neg hc] at e
    cases e
  · exact fun hc => if_pos hc

theorem presentedWord_of_edge {s : State} {p : Pins} (h : nextStimulus s = .edge p) :
    presentedWord s = .sel (selVector (takeStimulus s)) := by
  simp [presentedWord, h]

theorem presentedWord_of_request {s : State} {r : ThrReq} (h : nextStimulus s = .request r) :
    presentedWord s = .thr r := by
  simp [presentedWord, h]

end Sys2Proof.Machine
end

