-- ==== Sys2Proof/Laws/PerInstr.lean ====
section
/-! SUPPORT. Statements about every operation as syntax, one lemma per constructor of Instr. -/

namespace Sys2Proof.Laws

/-- The word the encoder writes has the fixed bits of the operation's own row of the map (R62, R133). -/
def EncodedWordFitsItsRow.Statement (i : Instr) : Prop :=
  match encode i with
  | .sel v => ∃ r ∈ selRows, r.op = i ∧ v &&& r.mask = r.value
  | .thr v => ∃ r ∈ thrRows, r.op = i ∧ v = r.value

theorem EncodedWordFitsItsRow.reset : EncodedWordFitsItsRow.Statement .reset :=
  ⟨⟨.reset, 0x40#7, 0x40#7⟩, by decide, rfl, by decide⟩
theorem EncodedWordFitsItsRow.hold : EncodedWordFitsItsRow.Statement .hold :=
  ⟨⟨.hold, 0x74#7, 0x00#7⟩, by decide, rfl, by decide⟩
theorem EncodedWordFitsItsRow.wait : EncodedWordFitsItsRow.Statement .wait :=
  ⟨⟨.wait, 0x74#7, 0x04#7⟩, by decide, rfl, by decide⟩
theorem EncodedWordFitsItsRow.fstep : EncodedWordFitsItsRow.Statement .fstep :=
  ⟨⟨.fstep, 0x78#7, 0x10#7⟩, by decide, rfl, by decide⟩
theorem EncodedWordFitsItsRow.fstepLast : EncodedWordFitsItsRow.Statement .fstepLast :=
  ⟨⟨.fstepLast, 0x78#7, 0x18#7⟩, by decide, rfl, by decide⟩
theorem EncodedWordFitsItsRow.runIdle : EncodedWordFitsItsRow.Statement .runIdle :=
  ⟨⟨.runIdle, 0x63#7, 0x20#7⟩, by decide, rfl, by decide⟩
theorem EncodedWordFitsItsRow.zcdet : EncodedWordFitsItsRow.Statement .zcdet :=
  ⟨⟨.zcdet, 0x63#7, 0x21#7⟩, by decide, rfl, by decide⟩
theorem EncodedWordFitsItsRow.zcadv : EncodedWordFitsItsRow.Statement .zcadv :=
  ⟨⟨.zcadv, 0x62#7, 0x22#7⟩, by decide, rfl, by decide⟩
theorem EncodedWordFitsItsRow.thrInc : EncodedWordFitsItsRow.Statement .thrInc :=
  ⟨⟨.thrInc, 0b10#2⟩, by decide, rfl, by decide⟩
theorem EncodedWordFitsItsRow.thrDec : EncodedWordFitsItsRow.Statement .thrDec :=
  ⟨⟨.thrDec, 0b01#2⟩, by decide, rfl, by decide⟩
theorem EncodedWordFitsItsRow.thrNone : EncodedWordFitsItsRow.Statement .thrNone :=
  ⟨⟨.thrNone, 0b00#2⟩, by decide, rfl, by decide⟩

end Sys2Proof.Laws
end

