-- ==== Sys2Proof/Tests/Slice0.lean ====
section
/-! SUPPORT. The model's own tests. Expected results are those of spec/95_test_vectors.md (named in each comment) or of the
rule named there; and, for every statement with hypotheses, a concrete state that meets them all. -/

namespace Sys2Proof.Tests

open Sys2Proof Sys2Proof.Machine

/-! ## Helpers -/

/-- The input pins in the order rst, tu, cmp = (u, v, w) of R69. -/
def pinsOf (rst tu u v w : Bool) : Pins := ⟨rst, tu, u, v, w⟩

/-- The configuration (3, 1, 1) of program P1. -/
def small : Cfg := { Cfg.reference with delayInit := 3, delayDec := 1, delayFloor := 1 }

/-- A Starting state of the reference configuration with one clock edge listed. -/
def startingAt (step : BitVec 3) (dly cnt : Nat) (p : Pins) : State :=
  { State.reset with step := step, dly := dly, cnt := cnt, en := true, pins := p, stimulus := [.edge p] }

/-- A Running state (delay at the floor, wait over) with one clock edge listed. -/
def runningAt (step : BitVec 3) (armed zcPend : Bool) (q : BitVec 3) (p : Pins) : State :=
  { State.reset with
    mode := .running
    step := step
    en := true
    dly := 100
    cnt := 0
    armed := armed
    zcPend := zcPend
    cmpQ := q
    pins := p
    stimulus := [.edge p] }

/-- A state with one neighbour call listed. -/
def requesting (duty : Int) (r : ThrReq) : State :=
  { State.reset with duty := duty, stimulus := [.request r] }

/-- The outcome is a next state of which a check holds. -/
def nextHas (o : StepOutcome) (f : State → Bool) : Bool :=
  match o with
  | .next t => f t
  | .fault _ => false
  | .refused _ => false

/-- The outcome is a given refusal. -/
def refusedWith (o : StepOutcome) (r : Refusal) : Bool :=
  match o with
  | .next _ => false
  | .fault _ => false
  | .refused r' => r' == r

/-! ## Decoding: words written out from R62 and R133 -/

theorem test_decode_reset : decode (.sel 0b1000000#7) = .op .reset := by decide
theorem test_decode_hold : decode (.sel 0b0000000#7) = .op .hold := by decide
theorem test_decode_wait : decode (.sel 0b0000100#7) = .op .wait := by decide
theorem test_decode_fstep : decode (.sel 0b0010000#7) = .op .fstep := by decide
theorem test_decode_fstepLast : decode (.sel 0b0011000#7) = .op .fstepLast := by decide
theorem test_decode_runIdle : decode (.sel 0b0111000#7) = .op .runIdle := by decide
theorem test_decode_zcdet : decode (.sel 0b0111001#7) = .op .zcdet := by decide
theorem test_decode_zcadv : decode (.sel 0b0111010#7) = .op .zcadv := by decide
theorem test_decode_thrInc : decode (.thr 0b10#2) = .op .thrInc := by decide
theorem test_decode_thrDec : decode (.thr 0b01#2) = .op .thrDec := by decide
theorem test_decode_thrNone : decode (.thr 0b00#2) = .op .thrNone := by decide
theorem test_decode_reserved_request : decode (.thr 0b11#2) = .rejected .reservedThrottleRequest := by decide

/-- The opcode table's own numbers: every row, and step runs it as the first instruction after reset (R62, R133; log 8). -/
theorem test_table_rows_run_from_reset :
    ([(8, 0x40, Instr.reset), (8, 0x00, .hold), (8, 0x04, .wait), (8, 0x10, .fstep), (8, 0x18, .fstepLast),
      (8, 0x20, .runIdle), (8, 0x21, .zcdet), (8, 0x22, .zcadv), (8, 2, .thrInc), (8, 1, .thrDec),
      (2, 0, .thrNone)].all fun r =>
        decodeTableWord r.1 r.2.1 == some r.2.2 &&
          decode (presentedWord (State.reset.withFetchWord r.1 r.2.1)) == .op r.2.2 &&
          nextHas (step (State.reset.withFetchWord r.1 r.2.1)) fun _ => true) = true := by decide

/-! ## Table, ROM word, gates -/

/-- V-T7. -/
theorem test_decode7_word : decode7 0x25#7 = some ⟨.V, .U, .W, .rising⟩ := by decide
/-- V-T8. -/
theorem test_encode7_entry : encode7 ⟨.W, .U, .V, .falling⟩ = 0b1000010#7 := by decide
/-- V-T6: the codes 6 and 7 read the words 0 and 1. -/
theorem test_lookup_codes_six_seven : memRead Cfg.reference 6 = 0x0C#7 ∧ memRead Cfg.reference 7 = 0x13#7 := by
  decide
/-- V-T9. -/
theorem test_gateDecode : gateDecode .U .V = 0b100100#6 ∧ gateDecode .V .U = 0b011000#6 := by decide
/-- V-T11 and R66. -/
theorem test_inc6 : [0, 1, 2, 3, 4, 5, 6, 7].map inc6 = [1, 2, 3, 4, 5, 0, 1, 2] := by decide

/-! ## Well-formedness: an ill-formed term for each check -/

theorem test_wf_reference : Cfg.reference.wellFormed = true ∧ Cfg.reference.throttleWellFormed = true := by decide
/-- R133: the reserved request. -/
theorem test_wf_refuses_reserved_request : Word.wellFormed (.thr 0b11#2) = false := by decide
/-- V-S17: DELAY_DEC = 0. -/
theorem test_wf_refuses_zero_decrement :
    Cfg.wellFormed { Cfg.reference with delayInit := 10, delayDec := 0, delayFloor := 4 } = false := by decide
/-- R7: DELAY_INIT, DELAY_FLOOR and (U8) DELAY_DEC below 2^DW. -/
theorem test_wf_refuses_wide_delays :
    Cfg.wellFormed { Cfg.reference with delayInit := 65536 } = false ∧
    Cfg.wellFormed { Cfg.reference with delayFloor := 65536 } = false ∧
    Cfg.wellFormed { Cfg.reference with delayDec := 65536 } = false := by decide
/-- R7: STEP_RESET below 6; R6: DW positive. -/
theorem test_wf_refuses_step_reset_and_width :
    Cfg.wellFormed { Cfg.reference with stepReset := 6 } = false ∧
    Cfg.wellFormed { Cfg.reference with delayInit := 0, delayDec := 0, delayFloor := 0, dw := 0 } = false := by
  decide
/-- V-T13: entries 1 and 2 swapped break V5 only. -/
theorem test_wf_refuses_wrong_rotation :
    let t : Table := #v[tableRef[0], tableRef[2], tableRef[1], tableRef[3], tableRef[4], tableRef[5]]
    (ValidPhasesDiffer t ∧ ValidFloating t ∧ ValidAllDifferent t ∧ ¬ ValidRotation t) ∧
      Cfg.wellFormed { Cfg.reference with table := t } = false := by decide
/-- R82 V2, V3, V4: equal phases, a wrong floating phase, a repeated pair. -/
theorem test_wf_refuses_bad_entries :
    ¬ ValidPhasesDiffer (tableRef.set 0 ⟨.U, .U, .W, .falling⟩) ∧
    ¬ ValidFloating (tableRef.set 0 ⟨.U, .V, .V, .falling⟩) ∧
    ¬ ValidAllDifferent (tableRef.set 0 ⟨.U, .W, .V, .falling⟩) := by decide
/-- V-T12: the words 0x7F and 0x00; the reference image is well formed. -/
theorem test_wf_rom_images :
    romWellFormed #v[0x0C#7, 0x13#7, 0x30#7, 0x25#7, 0x42#7, 0x49#7] = true ∧
    romWellFormed #v[0x7F#7, 0x13#7, 0x30#7, 0x25#7, 0x42#7, 0x49#7] = false ∧
    romWellFormed #v[0x00#7, 0x13#7, 0x30#7, 0x25#7, 0x42#7, 0x49#7] = false := by decide
/-- R8: the neighbour's bounds. -/
theorem test_wf_refuses_duty_bounds :
    Cfg.throttleWellFormed { Cfg.reference with minDuty := 4 } = false ∧
    Cfg.throttleWellFormed { Cfg.reference with dutyReset := -1 } = false := by decide

/-! ## The operations, one step each -/

/-- V-R1: RESET in Running with a pending event. -/
theorem test_reset_from_running :
    nextHas (step (runningAt 4 false true 0b100#3 (pinsOf true false false false true))) (fun t =>
      t.mode == .starting && t.step == 5#3 && t.dly == 5000 && t.zcPend == false && gates t == 0b000000#6) =
      true := by decide
/-- V-S18. -/
theorem test_hold_keeps_count :
    nextHas (step (startingAt 0 5000 2 (pinsOf false false true false false))) (fun t =>
      t.cnt == 2 && t.cmpQ == 0b001#3) = true := by decide
/-- V-S19; V-C9: a falling edge on U in Starting is no event. -/
theorem test_wait_counts :
    nextHas (step { startingAt 2 5000 7 (pinsOf false true false false false) with cmpQ := 0b001#3 }) (fun t =>
      t.cnt == 6 && t.armed == false && t.zcPend == false) = true := by decide
/-- V-S21. -/
theorem test_fstep_first :
    nextHas (step { startingAt 5 5000 0 (pinsOf false true false false false) with en := false }) (fun t =>
      t.step == 0#3 && t.en && t.dly == 4980 && t.cnt == 4980 && t.armed == false &&
        t.events == [.setPattern .U .V, .arm .W .falling]) = true := by decide
/-- V-S23: the truncated decrement. -/
theorem test_fstep_truncates :
    nextHas (step { startingAt 0 15 0 (pinsOf false false false false false) with
        cfg := { Cfg.reference with delayFloor := 5 } }) (fun t => t.step == 1#3 && t.dly == 0 && t.cnt == 0) =
      true := by decide
/-- V-S22. -/
theorem test_fstepLast_boundary :
    nextHas (step (startingAt 4 100 0 (pinsOf false false false false false))) (fun t =>
      t.step == 5#3 && t.mode == .running && t.armed && t.dly == 100 &&
        t.events == [.setPattern .W .V, .arm .U .rising, .arm .U .rising]) = true := by decide
/-- V-R3: the cold ramp (0, 1, 0). -/
theorem test_fstepLast_at_first_edge :
    nextHas (step { State.reset with
        cfg := { Cfg.reference with delayInit := 0, delayDec := 1, delayFloor := 0 }
        dly := 0
        cnt := 0
        stimulus := [.edge (pinsOf false false true false false)] }) (fun t =>
      t.step == 0#3 && t.mode == .running && t.cmpQ == 0b001#3 && gates t == 0b100100#6) = true := by decide
/-- V-C3: the wrong polarity. -/
theorem test_runIdle_wrong_polarity :
    nextHas (step (runningAt 2 true false 0b010#3 (pinsOf false false true true false))) (fun t =>
      t.cmpQ == 0b011#3 && t.armed && t.zcPend == false && t.step == 2#3) = true := by decide
/-- V-C8: the level already past the reference. -/
theorem test_runIdle_level_already_high :
    nextHas (step (runningAt 3 true false 0b110#3 (pinsOf false false false true true))) (fun t =>
      t.zcPend == false && t.step == 3#3) = true := by decide
/-- V-C5: simultaneous edges, only U counts. -/
theorem test_zcdet_only_the_monitored_phase :
    nextHas (step (runningAt 2 true false 0b011#3 (pinsOf false false false false true))) (fun t =>
      t.armed == false && t.zcPend && t.step == 2#3 && t.cmpQ == 0b100#3) = true := by decide
/-- V-C13: a rising edge on V. -/
theorem test_zcdet_rising :
    nextHas (step (runningAt 1 true false 0b001#3 (pinsOf false false true true false))) (fun t =>
      t.armed == false && t.zcPend) = true := by decide
/-- V-C2, E5. -/
theorem test_zcadv_two_to_three :
    nextHas (step (runningAt 2 false true 0b010#3 (pinsOf false false false true true))) (fun t =>
      t.step == 3#3 && t.armed && t.zcPend == false && gates t == 0b011000#6 &&
        t.events == [.setPattern .V .U, .arm .W .rising]) = true := by decide
/-- V-C6, V-C7: modulo 6, not 5. -/
theorem test_zcadv_modulo_six :
    (nextHas (step (runningAt 5 false true 0#3 (pinsOf false false false false false))) (fun t => t.step == 0#3) &&
      nextHas (step (runningAt 4 false true 0#3 (pinsOf false false false false false))) (fun t => t.step == 5#3)) =
      true := by decide
/-- V-N1, V-N2. -/
theorem test_thrInc :
    (nextHas (step (requesting 0 0b10#2)) (fun t => t.duty == 1 && t.thrEvents == [.setDuty 1]) &&
      nextHas (step (requesting 3 0b10#2)) (fun t => t.duty == 3 && t.thrEvents == [])) = true := by decide
/-- V-N3, V-N4. -/
theorem test_thrDec :
    (nextHas (step (requesting 3 0b01#2)) (fun t => t.duty == 2 && t.thrEvents == [.setDuty 2]) &&
      nextHas (step (requesting 0 0b01#2)) (fun t => t.duty == 0 && t.thrEvents == [])) = true := by decide
/-- V-N5, V-N6. -/
theorem test_thrNone_and_reserved :
    (nextHas (step (requesting 2 0b00#2)) (fun t => t.duty == 2 && t.thrEvents == []) &&
      refusedWith (step (requesting 2 0b11#2)) .reservedThrottleRequest) = true := by decide
/-- Line 4 of program P1 as a trace line (R69). -/
theorem test_trace_line_of_p1 :
    ((traceLine { State.reset with
        cfg := small
        dly := 3
        cnt := 0
        stimulus := [.edge (pinsOf false true false false false)] }).map
      fun l => (l.word, l.op, l.events, l.gates)) =
    some (.sel 0b0010100#7, .fstep, [.setPattern .U .V, .arm .W .falling], 0b100100#6) := by decide

/-! ## Witnesses: a state that meets all the hypotheses of each statement -/

/-- A quiet edge and a reset edge. -/
def quiet : Pins := pinsOf false false false false false
def resetEdge : Pins := pinsOf true false false false false

theorem test_witness_EncodedOperationDecodesToItself : Instr.zcadv.wellFormed = true := by decide
theorem test_witness_RomLookupDecodesTheTableEntry :
    9 % 6 < 6 ∧ Cfg.reference.table = tableRef := by decide
theorem test_witness_AdmissibleRomWordsAreTwelve :
    romWordAdmissible (#v[0x0C#7, 0x13#7, 0x7F#7, 0x25#7, 0x42#7, 0x49#7] : Vector RomWord 6)[(2 : Fin 6)] =
      false ∧ romWordAdmissible 0x0C#7 = true := by decide
theorem test_witness_GateDecodeAssertsExactlyTheTwoNamedSwitches : (5 < 6) ∧ (0 < 6) ∧ Phase.U ≠ .V := by decide
theorem test_witness_EnumerationCodesAndEdgePolarity : romWordAdmissible 0x25#7 = true := by decide
theorem test_witness_StepRunsTheDecodedOperation :
    parameterRefusal (startingAt 0 5000 2 quiet) = none ∧
      decode (presentedWord (startingAt 0 5000 2 quiet)) = .op .hold ∧ Instr.hold.wellFormed = true := by decide
theorem test_witness_SelectVectorReadsTheSevenConditions :
    nextStimulus (startingAt 0 5000 2 quiet) = .edge quiet := by decide
/-- One configuration for each disjunct of the hypothesis, at the boundary value. -/
theorem test_witness_InadmissibleConfigurationIsRefused :
    ∀ c ∈ [{ Cfg.reference with table := tableRef.set 0 ⟨.U, .U, .W, .falling⟩ },
        { Cfg.reference with delayDec := 0 }, { Cfg.reference with delayInit := 65536 },
        { Cfg.reference with delayFloor := 65536 }, { Cfg.reference with stepReset := 6 }],
      nextStimulus { startingAt 0 5000 2 quiet with cfg := c } = .edge quiet ∧
      (¬ ValidTable c.table ∨ c.delayDec = 0 ∨ 2 ^ c.dw ≤ c.delayInit ∨ 2 ^ c.dw ≤ c.delayFloor ∨
        6 ≤ c.stepReset) := by decide
theorem test_witness_EveryClockEdgeCompletes :
    nextStimulus (runningAt 2 true false 0#3 quiet) = .edge quiet ∧
      Admissible (runningAt 2 true false 0#3 quiet).cfg := by decide
theorem test_witness_CycleSelectsByNestedConditions :
    nextStimulus (startingAt 0 5000 0 quiet) = .edge quiet ∧ Admissible (startingAt 0 5000 0 quiet).cfg := by decide
/-- First clause at the least count; second clause just after. -/
theorem test_witness_WaitCountsOneTimeUnit :
    (startingAt 0 5000 1 quiet).cnt ≠ 0 ∧
    ((startingAt 0 5000 0 quiet).mode = .starting ∧ (startingAt 0 5000 0 quiet).cnt = 0 ∧
      nextStimulus (startingAt 0 5000 0 quiet) = .edge quiet ∧ quiet.rst = false) := by decide
theorem test_witness_FstepForcesAStepAndShortensTheDelay :
    (startingAt 5 5000 0 quiet).mode = .starting ∧
    ((startingAt 5 0 0 quiet).cnt = 0 ∧ (startingAt 5 0 0 quiet).dly = 0 ∧
      nextStimulus (startingAt 5 0 0 quiet) = .edge quiet ∧ quiet.rst = false) := by decide
theorem test_witness_FstepLastForcesTheBoundaryStepAndStartsRunning :
    (startingAt 4 100 0 quiet).mode = .starting := by decide
theorem test_witness_ForceStepIsRefusedWhileRunning :
    (startingAt 4 100 0 quiet).mode = .starting ∧ (runningAt 4 true false 0#3 quiet).mode = .running := by decide
theorem test_witness_ZcdetRaisesTheRequestAndDisarms :
    (runningAt 4 false true 0#3 quiet).mode = .running ∧ (runningAt 4 false true 0#3 quiet).zcPend = true ∧
      nextStimulus (runningAt 4 false true 0#3 quiet) = .edge quiet ∧ quiet.rst = false := by decide
theorem test_witness_ZcadvServesTheRequest : (runningAt 5 false true 0#3 quiet).mode = .running := by decide
/-- Below the bound, at the bound, and at the other end. -/
theorem test_witness_ThrIncSaturatesAtMaxDuty :
    (requesting 2 0b10#2).duty < (requesting 2 0b10#2).cfg.maxDuty ∧
    (requesting 3 0b10#2).cfg.maxDuty ≤ (requesting 3 0b10#2).duty ∧
    ((requesting 0 0b10#2).cfg.minDuty ≤ (requesting 0 0b10#2).cfg.maxDuty ∧
      (requesting 0 0b10#2).duty = (requesting 0 0b10#2).cfg.minDuty) := by decide
theorem test_witness_ThrDecSaturatesAtMinDuty :
    (requesting 1 0b01#2).cfg.minDuty < (requesting 1 0b01#2).duty ∧
    (requesting 0 0b01#2).duty ≤ (requesting 0 0b01#2).cfg.minDuty ∧
    ((requesting 3 0b01#2).cfg.minDuty ≤ (requesting 3 0b01#2).cfg.maxDuty ∧
      (requesting 3 0b01#2).duty = (requesting 3 0b01#2).cfg.maxDuty) := by decide
theorem test_witness_ThrNoneLeavesTheDutyAndReservedIsRefused :
    ThrottleAdmissible (requesting 2 0b11#2).cfg ∧ nextStimulus (requesting 2 0b11#2) = .request 0b11#2 ∧
    nextStimulus (requesting 2 0b10#2) = .request 0b10#2 ∧ (0b10#2 : ThrReq) ≠ 0b11#2 := by decide
/-- One configuration for each disjunct, at the boundary value. -/
theorem test_witness_InadmissibleDutyBoundsAreRefused :
    ∀ c ∈ [{ Cfg.reference with maxDuty := -1 }, { Cfg.reference with dutyReset := -1 },
        { Cfg.reference with dutyReset := 4 }],
      nextStimulus { requesting 0 0b10#2 with cfg := c } = .request 0b10#2 ∧
      (c.maxDuty < c.minDuty ∨ c.dutyReset < c.minDuty ∨ c.maxDuty < c.dutyReset) := by decide
theorem test_witness_OutputPortsFollowTheState :
    State.reset.en = false ∧ (runningAt 2 true false 0#3 quiet).en = true := by decide
theorem test_witness_ComparatorsAreSampledAtEveryEdge :
    nextStimulus (startingAt 0 5000 2 quiet) = .edge quiet ∧
      nextHas (step (startingAt 0 5000 2 quiet)) (fun _ => true) = true := by decide
theorem test_witness_StrobeMattersOnlyDuringAWait :
    (startingAt 0 5000 0 quiet).stimulus = .edge quiet :: [] ∧
      ¬ ((startingAt 0 5000 0 quiet).mode = .starting ∧ (startingAt 0 5000 0 quiet).cnt ≠ 0 ∧
        quiet.rst = false) ∧
      nextHas (step (startingAt 0 5000 0 quiet)) (fun _ => true) = true := by decide
theorem test_witness_StartupIgnoresComparators :
    (startingAt 0 5000 1 quiet).stimulus = .edge quiet :: [] ∧ (startingAt 0 5000 1 quiet).mode = .starting ∧
      quiet.rst = false ∧ (pinsOf false false true true true).rst = false ∧
      (pinsOf false false true true true).tu = quiet.tu ∧
      nextStimulus (startingAt 0 5000 1 quiet) = .edge quiet ∧
      nextHas (step (startingAt 0 5000 1 quiet)) (fun _ => true) = true := by decide
theorem test_witness_DisarmedDetectorIgnoresSamples :
    nextStimulus (runningAt 2 false true 0b111#3 quiet) = .edge quiet ∧
      (runningAt 2 false true 0b111#3 quiet).armed = false := by decide
theorem test_witness_PendingRequestIsServedAtTheNextEdge :
    Admissible (runningAt 5 false true 0#3 quiet).cfg ∧ (runningAt 5 false true 0#3 quiet).mode = .running ∧
      (runningAt 5 false true 0#3 quiet).zcPend = true ∧
      nextStimulus (runningAt 5 false true 0#3 quiet) = .edge quiet ∧ quiet.rst = false := by decide
theorem test_witness_StartingDeliversNoEvent :
    CoreInv (startingAt 0 100 0 quiet) ∧ (startingAt 0 100 0 quiet).mode = .starting ∧
      nextStimulus (startingAt 0 100 0 quiet) = .edge quiet ∧
      nextHas (step (startingAt 0 100 0 quiet)) (fun t => t.armed) = true := by decide
/-- One state for each clause: a request raised, a request cleared by the handler. -/
theorem test_witness_RequestIsRaisedByAnEdgeAndClearedByTheHandler :
    ((runningAt 2 true false 0b001#3 quiet).zcPend = false ∧
      decode (presentedWord (runningAt 2 true false 0b001#3 quiet)) = .op .zcdet ∧
      nextHas (step (runningAt 2 true false 0b001#3 quiet)) (fun t => t.zcPend) = true) ∧
    ((runningAt 2 false true 0b001#3 quiet).zcPend = true ∧
      decode (presentedWord (runningAt 2 false true 0b001#3 quiet)) = .op .zcadv ∧
      nextHas (step (runningAt 2 false true 0b001#3 quiet)) (fun t => !t.zcPend) = true) := by decide
theorem test_witness_LostEdgeWindowIgnoresComparators :
    (runningAt 2 false true 0b001#3 quiet).stimulus = .edge quiet :: [] ∧
      (runningAt 2 false true 0b001#3 quiet).mode = .running ∧
      (runningAt 2 false true 0b001#3 quiet).zcPend = true ∧ quiet.rst = false ∧
      (pinsOf false true true false true).rst = false ∧
      nextHas (step (runningAt 2 false true 0b001#3 quiet)) (fun _ => true) = true := by decide
theorem test_witness_QualifyingEdgeAdvancesInTwoEdges :
    let s := { runningAt 2 true false 0b001#3 quiet with stimulus := [.edge quiet, .edge quiet] }
    Admissible s.cfg ∧ s.mode = .running ∧ s.zcPend = false ∧
      s.stimulus = .edge quiet :: .edge quiet :: [] ∧ quiet.rst = false ∧ qualifies s quiet = true := by decide
theorem test_witness_AdvancesAreTwoEdgesApart :
    let s := { runningAt 2 false true 0b001#3 quiet with stimulus := [.edge quiet, .edge quiet] }
    decode (presentedWord s) = .op .zcadv ∧ quiet.rst = false ∧
      nextHas (step s) (fun t =>
        decide (nextStimulus t = .edge quiet) && nextHas (step t) (fun _ => true)) = true := by decide
theorem test_witness_StallKeepsThePattern :
    let s := { runningAt 3 true false 0b110#3 quiet with
      stimulus := [pinsOf false false true false true, pinsOf false true false true true].map Stimulus.edge }
    Admissible s.cfg ∧ s.mode = .running ∧ s.armed = true ∧ s.zcPend = false ∧
      ∀ p ∈ [pinsOf false false true false true, pinsOf false true false true true],
        p.rst = false ∧ sampleOf (cmpOf p) (currentEntry s).flt = sampleOf s.cmpQ (currentEntry s).flt := by decide
/-- Both clauses: into Running, and back by reset. -/
theorem test_witness_ModeChangesOnlyByItsTwoWriters :
    ((startingAt 4 100 0 quiet).mode = .starting ∧
      nextHas (step (startingAt 4 100 0 quiet)) (fun t => t.mode == .running) = true) ∧
    ((runningAt 4 true false 0#3 resetEdge).mode = .running ∧
      nextHas (step (runningAt 4 true false 0#3 resetEdge)) (fun t => t.mode == .starting) = true) := by decide
/-- One state for each clause: FSTEP, FSTEP_LAST, ZCADV, and an operation that writes no step. -/
theorem test_witness_StepIsWrittenOnlyByItsOwners :
    ∀ x ∈ [(startingAt 5 5000 0 quiet, Instr.fstep), (startingAt 4 100 0 quiet, .fstepLast),
        (runningAt 5 false true 0#3 quiet, .zcadv), (runningAt 5 true false 0#3 quiet, .runIdle)],
      decode (presentedWord x.1) = .op x.2 ∧ nextHas (step x.1) (fun _ => true) = true := by decide
theorem test_witness_EachModePerformsOnlyItsOperations :
    ∀ x ∈ [(startingAt 5 5000 0 quiet, Instr.fstep), (runningAt 5 true false 0#3 quiet, .runIdle)],
      decode (presentedWord x.1) = .op x.2 ∧ x.2 ∈ coreOps ∧ x.2 ≠ .reset ∧
        nextHas (step x.1) (fun _ => true) = true := by decide
theorem test_witness_ParametersAndRomNeverChange :
    nextHas (exec .reset (runningAt 5 true false 0#3 resetEdge)) (fun _ => true) = true ∧
      nextHas (step (runningAt 5 true false 0#3 resetEdge)) (fun _ => true) = true := by decide
theorem test_witness_CoreAndNeighbourShareNoState :
    (nextHas (exec .reset (requesting 2 0#2)) (fun _ => true) = true ∧ Instr.reset ∈ coreOps) ∧
    (nextHas (exec .thrInc (requesting 2 0#2)) (fun _ => true) = true ∧ Instr.thrInc ∈ throttleOps) := by decide
/-- Every CORE operation in a mode that runs it, RESET among them, with either request, inside the bounds and at each. -/
theorem test_witness_ThrottleCommutesWithEveryCoreOperation :
    ∀ i ∈ coreOps, ∀ j ∈ [Instr.thrInc, .thrDec], ∀ d ∈ [0, 2, 3],
      nextHas (exec i (requesting d 0#2)) (fun _ => true) = true ∧
      nextHas (exec j (requesting d 0#2)) (fun _ => true) = true := by decide
/-- RESET and THR_INC at duty 1, which is no bound and not DUTY_RESET: the two orders agree (R134; log 11). -/
theorem test_reset_commutes_with_thrInc :
    (requesting 1 0#2).duty ≠ (requesting 1 0#2).cfg.dutyReset ∧
    nextHas (exec .reset (requesting 1 0#2)) (fun t => nextHas (exec .thrInc t) fun w => w.duty == 2) = true ∧
    nextHas (exec .thrInc (requesting 1 0#2)) (fun t => nextHas (exec .reset t) fun w => w.duty == 2) = true := by decide
theorem test_witness_StepKeepsTheReachableInvariants :
    CoreInv (runningAt 5 false true 0#3 quiet) ∧
      nextHas (step (runningAt 5 false true 0#3 quiet)) (fun _ => true) = true := by decide
theorem test_witness_ResetEdgeEstablishesTheInvariants :
    nextStimulus (runningAt 7 true true 0#3 resetEdge) = .edge resetEdge ∧ resetEdge.rst = true ∧
      Admissible (runningAt 7 true true 0#3 resetEdge).cfg ∧ ¬ CoreInv (runningAt 7 true true 0#3 resetEdge) := by
  decide
theorem test_witness_StepKeepsTheDutyBounds :
    DutyInBounds (requesting 3 0b10#2) ∧ nextHas (step (requesting 3 0b10#2)) (fun _ => true) = true := by decide
/-- Not energized, and energized, with a valid table. -/
theorem test_witness_EnergizedPatternIsSafe :
    (ValidTable State.reset.cfg.table ∧ State.reset.en = false) ∧
    (runningAt 2 true false 0#3 quiet).en = true := by decide
theorem test_witness_DelaysFitTheirWidth : CoreInv State.reset ∧ Admissible State.reset.cfg := by decide
theorem test_witness_ValidTableFloatsEachPhaseTwice : ValidTable tableRef ∧ 5 < 6 := by decide
theorem test_witness_RevolutionAssertsEveryPatternOnce :
    ValidTable (runningAt 5 false true 0#3 quiet).cfg.table ∧ Phase.U ≠ .W ∧
      (runningAt 5 false true 0#3 quiet).step.toNat < 6 := by decide
theorem test_witness_AdvanceTurnsOneSwitchOffAndOneOn :
    ∀ x ∈ [(startingAt 5 5000 0 quiet, Instr.fstep), (startingAt 4 100 0 quiet, .fstepLast),
        (runningAt 5 false true 0#3 quiet, .zcadv)],
      ValidTable x.1.cfg.table ∧ x.1.en = true ∧ x.2 ∈ [Instr.fstep, .fstepLast, .zcadv] ∧
        nextHas (exec x.2 x.1) (fun _ => true) = true := by decide
/-- At the floor and just above it. -/
theorem test_witness_NextDelayDecidesTheTick :
    (100 ≤ Cfg.reference.delayFloor ∧ Cfg.reference.delayFloor < 101) ∧
    (1 ≤ Cfg.reference.delayDec ∧ nextDelay Cfg.reference 101 = some 81) ∧
    ∀ d ∈ [100, 101], Admissible (startingAt 0 d 0 quiet).cfg ∧ (startingAt 0 d 0 quiet).mode = .starting ∧
      (startingAt 0 d 0 quiet).cnt = 0 ∧ nextStimulus (startingAt 0 d 0 quiet) = .edge quiet ∧
      quiet.rst = false := by decide
/-- The ramp (0, 1, 0), one edge long (V-S10), and the ramp (3, 1, 1), nine edges long (V-S8). -/
theorem test_witness_RampReachesRunningOnSchedule :
    ∀ x ∈ [({ Cfg.reference with delayInit := 0, delayDec := 1, delayFloor := 0 }, 1), (small, 9)],
      Admissible x.1 ∧
        (List.replicate x.2 (pinsOf false true false false false)).length = rampUnits x.1 + rampSteps x.1 + 1 ∧
        ∀ p ∈ List.replicate x.2 (pinsOf false true false false false), p.rst = false ∧ p.tu = true := by decide
theorem test_witness_RampNeverEndsEarly :
    Admissible small ∧ (List.replicate 8 quiet).length ≤ rampUnits small + rampSteps small ∧
      ∀ p ∈ List.replicate 8 quiet, p.rst = false := by decide

end Sys2Proof.Tests
end

section
/-! PROOFS of the family 00_scope.md: a clock edge of a configuration that R7 does not admit. -/

namespace Sys2Proof.Machine

/-- A refusal of the parameters is the answer of the step: no word is decoded and no operation performed. -/
theorem step_of_parameterRefusal {s : State} {r : Refusal} (h : parameterRefusal s = some r) :
    step s = .refused r := by
  simp [step, h]

/-- R7: at a clock edge the refusal is that of the configuration, whatever the inputs and the rest of the state. -/
theorem parameterRefusal_of_edge_of_not_admissible {s : State} {p : Pins} (h : nextStimulus s = .edge p)
    (hc : ¬ Admissible s.cfg) : parameterRefusal s = some .inadmissibleConfiguration := by
  simp only [parameterRefusal, h]
  exact if_neg hc

/-- Each constraint that R7 lists is necessary for a configuration to be admissible. -/
theorem not_admissible_of_listed {c : Cfg}
    (h : ¬ ValidTable c.table ∨ c.delayDec = 0 ∨ 2 ^ c.dw ≤ c.delayInit ∨ 2 ^ c.dw ≤ c.delayFloor ∨
      6 ≤ c.stepReset) : ¬ Admissible c := by
  rintro ⟨table_valid, dec_pos, init_lt, -, floor_lt, -, reset_lt⟩
  rcases h with table_bad | dec_zero | init_ge | floor_ge | reset_ge
  · exact table_bad table_valid
  · exact Nat.ne_of_gt dec_pos dec_zero
  · exact Nat.not_lt.mpr init_ge init_lt
  · exact Nat.not_lt.mpr floor_ge floor_lt
  · exact Nat.not_lt.mpr reset_ge reset_lt

/-- Settles O12: a listed violation makes the configuration inadmissible, and the step refuses before it decodes. -/
theorem inadmissibleConfigurationIsRefused : Obligations.InadmissibleConfigurationIsRefused := by
  intro s p edge listed
  exact step_of_parameterRefusal
    (parameterRefusal_of_edge_of_not_admissible edge (not_admissible_of_listed listed))

end Sys2Proof.Machine
end

section
/-! PROOFS of the family 10_state.md: the output ports of R34. -/

namespace Sys2Proof.Machine

/-! ## The gates -/

/-- R23: not energized, all six gates are off. -/
theorem gates_of_not_en {s : State} (h : s.en = false) : gates s = 0b000000#6 := by
  simp [gates, h]

/-- R34: energized, the gates are those of the entry being driven. -/
theorem gates_of_en {s : State} (h : s.en = true) :
    gates s = gateDecode (currentEntry s).hi (currentEntry s).lo := by
  simp [gates, h]

/-! ## The one-bit ports: what the value 1 says -/

/-- R58: 1 is the code of Running. -/
theorem modeO_eq_one {s : State} : modeO s = 1#1 ↔ s.mode = .running := by
  unfold modeO
  cases s.mode <;> decide

theorem armedO_eq_one {s : State} : armedO s = 1#1 ↔ s.armed = true :=
  BitVec.ofBool_eq_iff_eq (b' := true)

theorem zcIrq_eq_one {s : State} : zcIrq s = 1#1 ↔ s.zcPend = true :=
  BitVec.ofBool_eq_iff_eq (b' := true)

/-- R57: 1 is the code of a rising edge. -/
theorem sensePol_eq_one {s : State} : sensePol s = 1#1 ↔ (currentEntry s).pol = .rising := by
  unfold sensePol
  cases (currentEntry s).pol <;> decide

/-- Settles O29, port by port: the gates by whether the state is energized, the step and the monitored phase as the
state has them, and each one-bit port by what its value 1 says. -/
theorem outputPortsFollowTheState : Obligations.OutputPortsFollowTheState := fun _ =>
  ⟨gates_of_not_en, gates_of_en, rfl, modeO_eq_one, armedO_eq_one, zcIrq_eq_one, rfl, sensePol_eq_one⟩

end Sys2Proof.Machine
end

section
/-! PROOFS of the family 20_memory.md: the commutation ROM and the other parameters of R43. -/

namespace Sys2Proof.Machine

/-- R43: no operation writes the configuration, RESET and the neighbour's requests among them. -/
theorem exec_keeps_cfg {i : Instr} {s t : State} (h : exec i s = .next t) : t.cfg = s.cfg := by
  cases i with
  | reset => rw [execReset_next.mp h, resetCore_cfg]
  | hold => rw [execHold_next.mp h, sampleEdge_cfg]
  | wait => rw [execWait_next.mp h, countDown_cfg, sampleEdge_cfg]
  | fstep => rw [(execFstep_next.mp h).2, loadNextWait_cfg, applyEntry_cfg, sampleEdge_cfg]
  | fstepLast => rw [(execFstepLast_next.mp h).2, transitionToRunning_cfg, applyEntry_cfg, sampleEdge_cfg]
  | runIdle => rw [execRunIdle_next.mp h, sampleEdge_cfg]
  | zcdet => rw [execZcdet_next.mp h, requestZeroCrossing_cfg, sampleEdge_cfg]
  | zcadv => rw [execZcadv_next.mp h, onZeroCrossingEvent_cfg, sampleEdge_cfg]
  | thrInc => rw [execThrInc_next.mp h, increase_cfg]
  | thrDec => rw [execThrDec_next.mp h, decrease_cfg]
  | thrNone => rw [execThrNone_next.mp h, noRequest_cfg]

/-- R43: neither taking the inputs nor the operation they select writes the configuration. -/
theorem step_keeps_cfg {s t : State} (h : step s = .next t) : t.cfg = s.cfg := by
  obtain ⟨-, i, -, performed⟩ := step_next.mp h
  rw [exec_keeps_cfg performed, takeStimulus_cfg]

/-- Settles O44: every operation and every step keeps the configuration, and with it each word of the ROM. -/
theorem parametersAndRomNeverChange : Obligations.ParametersAndRomNeverChange := by
  refine ⟨fun i s t performed => ?_, fun s t stepped => ?_⟩
  · have kept : t.cfg = s.cfg := exec_keeps_cfg performed
    exact ⟨kept, fun a => by rw [kept]⟩
  · have kept : t.cfg = s.cfg := step_keeps_cfg stepped
    exact ⟨kept, fun a => by rw [kept]⟩

end Sys2Proof.Machine
end

section
/-! PROOFS of the family 30_encoding.md: the operation map, the ROM word, the gate vector, the codes of the enumerations
and the select vector. -/

namespace Sys2Proof.Machine

/-! ## The operation map (R62) -/

/-- Two rows of different operations both fix some bit, to different values: this is what makes the map unambiguous. -/
theorem selRows_conflict :
    ∀ r ∈ selRows, ∀ q ∈ selRows, r.op ≠ q.op → r.value &&& q.mask ≠ q.value &&& r.mask := by decide

/-- Each operation has one row. -/
theorem selRows_op_injective : ∀ r ∈ selRows, ∀ q ∈ selRows, r.op = q.op → r = q := by decide

/-- R63: no select vector fits the rows of two operations. -/
theorem selRows_unambiguous {r q : SelRow} {v : SelWord} (hr : r ∈ selRows) (hq : q ∈ selRows)
    (fits_r : v &&& r.mask = r.value) (fits_q : v &&& q.mask = q.value) : r = q := by
  have agree : r.value &&& q.mask = q.value &&& r.mask := by
    rw [← fits_r, ← fits_q, BitVec.and_assoc, BitVec.and_assoc, BitVec.and_comm r.mask]
  by_contra differ
  exact selRows_conflict r hr q hq (fun same_op => differ (selRows_op_injective r hr q hq same_op)) agree

/-- What the decoder answers is the operation of a row that the select vector fits. -/
theorem decode_sel_eq_op {v : SelWord} {i : Instr} :
    decode (.sel v) = .op i ↔ ∃ r ∈ selRows, r.op = i ∧ v &&& r.mask = r.value := by
  cases found : selRows.find? (fun r => v &&& r.mask == r.value) with
  | none =>
    have no_row : ∀ r ∈ selRows, v &&& r.mask ≠ r.value := by simpa using found
    simp only [decode, found, reduceCtorEq, false_iff]
    rintro ⟨r, hr, -, fits⟩
    exact no_row r hr fits
  | some q =>
    have hq : q ∈ selRows := List.mem_of_find?_eq_some found
    have fits_q : v &&& q.mask = q.value := by simpa using List.find?_some found
    simp only [decode, found, Decoded.op.injEq]
    constructor
    · exact fun op_eq => ⟨q, hq, op_eq, fits_q⟩
    · rintro ⟨r, hr, rfl, fits_r⟩
      rw [selRows_unambiguous hr hq fits_r fits_q]

/-- R62: a row's operation is selected exactly when `(sel & mask) = match`. -/
theorem decode_sel_eq_op_of_row (v : SelWord) :
    ∀ r ∈ selRows, (decode (.sel v) = .op r.op ↔ v &&& r.mask = r.value) := by
  intro r hr
  rw [decode_sel_eq_op]
  constructor
  · rintro ⟨q, hq, same_op, fits⟩
    rwa [← selRows_op_injective q hq r hr same_op]
  · exact fun fits => ⟨r, hr, rfl, fits⟩

/-- Settles O1: the law of a row, read off for each of the eight rows in the order of R62. -/
theorem selectMapFollowsMaskAndMatch : Obligations.SelectMapFollowsMaskAndMatch := by
  intro v
  have rows := decode_sel_eq_op_of_row v
  simp only [selRows, List.forall_mem_cons] at rows
  obtain ⟨reset, hold, wait, fstep, fstepLast, runIdle, zcdet, zcadv, -⟩ := rows
  exact ⟨reset, hold, wait, fstep, fstepLast, runIdle, zcdet, zcadv⟩

/-! ## The codes of the enumerations (R56, R57) -/

/-- R56: a two-bit field names a phase exactly when it holds that phase's code. -/
theorem phaseOfCode_eq_some {c : BitVec 2} {p : Phase} : phaseOfCode c = some p ↔ c = phaseCode p := by
  revert c
  cases p <;> decide

/-- R56: the reserved code is the code of no phase. -/
theorem phaseCode_ne_reserved (p : Phase) : phaseCode p ≠ 0b11#2 := by
  cases p <;> decide

/-- R57: a rising edge goes from 0 to 1. -/
theorem edge_rising {prev now : Bool} : edge .rising prev now = true ↔ prev = false ∧ now = true := by
  simp [edge]

/-- R57: a falling edge goes from 1 to 0. -/
theorem edge_falling {prev now : Bool} : edge .falling prev now = true ↔ prev = true ∧ now = false := by
  simp [edge]

/-! ## The ROM word (R60, R65) -/

/-- R60: the entry of a ROM word, field by field. -/
theorem decode7_eq_some {w : RomWord} {e : CommutationEntry} :
    decode7 w = some e ↔
      w.extractLsb' 5 2 = phaseCode e.hi ∧ w.extractLsb' 3 2 = phaseCode e.lo ∧
        w.extractLsb' 1 2 = phaseCode e.flt ∧ polarityOfCode (w.extractLsb' 0 1) = e.pol := by
  obtain ⟨hi, lo, flt, pol⟩ := e
  simp only [← phaseOfCode_eq_some]
  unfold decode7
  split
  next a b c ha hb hc => simp [ha, hb, hc]
  next missing =>
    simp only [reduceCtorEq, false_iff]
    rintro ⟨ha, hb, hc, -⟩
    exact missing hi lo flt ha hb hc

/-- R65: an admissible word decodes, and its third field names the phase that is neither of the first two. -/
theorem romWordAdmissible_iff {w : RomWord} :
    romWordAdmissible w = true ↔ ∃ e, decode7 w = some e ∧ third e.hi e.lo = some e.flt := by
  unfold romWordAdmissible
  cases decode7 w <;> simp

/-- The floating phase is a third one only where the driven phases differ (R11). -/
theorem driven_ne_of_third {p q r : Phase} (h : third p q = some r) : p ≠ q :=
  (third_eq_some.mp h).1

/-- R65: no phase field of an admissible word holds the reserved code. -/
theorem admissible_fields_ne_reserved {w : RomWord} (h : romWordAdmissible w = true) :
    w.extractLsb' 5 2 ≠ 0b11#2 ∧ w.extractLsb' 3 2 ≠ 0b11#2 ∧ w.extractLsb' 1 2 ≠ 0b11#2 := by
  obtain ⟨e, decoded, -⟩ := romWordAdmissible_iff.mp h
  obtain ⟨hi, lo, flt, -⟩ := decode7_eq_some.mp decoded
  rw [hi, lo, flt]
  exact ⟨phaseCode_ne_reserved _, phaseCode_ne_reserved _, phaseCode_ne_reserved _⟩

/-- The table of a ROM image holds, at each address, the entry of the word there (R86). -/
theorem decode7_of_tableOfRom {rom : Vector RomWord 6} {t : Table} (h : tableOfRom rom = some t) (k : Fin 6) :
    decode7 rom[k] = some t[k] := by
  unfold tableOfRom at h
  split at h
  next _ _ _ _ _ _ h0 h1 h2 h3 h4 h5 =>
    cases h
    match k with
    | 0 => exact h0
    | 1 => exact h1
    | 2 => exact h2
    | 3 => exact h3
    | 4 => exact h4
    | 5 => exact h5
  next => cases h

theorem romWellFormed_iff {rom : Vector RomWord 6} :
    romWellFormed rom = true ↔ ∃ t, tableOfRom rom = some t ∧ ValidTable t := by
  unfold romWellFormed
  cases tableOfRom rom <;> simp

/-- R65: every word of an accepted ROM image is admissible, by V3 of its table. -/
theorem romWordAdmissible_of_romWellFormed {rom : Vector RomWord 6} (h : romWellFormed rom = true) (k : Fin 6) :
    romWordAdmissible rom[k] = true := by
  obtain ⟨t, built, -, floating, -, -⟩ := romWellFormed_iff.mp h
  exact romWordAdmissible_iff.mpr ⟨t[k], decode7_of_tableOfRom built k, floating k⟩

/-- Settles O7: the count over the 128 words; an admissible word's driven phases differ because its third phase exists;
and an accepted image holds admissible words only. -/
theorem admissibleRomWordsAreTwelve : Obligations.AdmissibleRomWordsAreTwelve := by
  refine ⟨by decide, fun w => ?_, fun rom k bad => ?_⟩
  · rw [romWordAdmissible_iff]
    constructor
    · rintro ⟨e, decoded, floating⟩
      exact ⟨e, decoded, driven_ne_of_third floating, floating⟩
    · rintro ⟨e, decoded, -, floating⟩
      exact ⟨e, decoded, floating⟩
  · rw [← Bool.not_eq_true]
    intro accepted
    rw [romWordAdmissible_of_romWellFormed accepted k] at bad
    cases bad

/-- Settles O9: the codes are those the definitions write; the reserved code and the edges by their laws above. -/
theorem enumerationCodesAndEdgePolarity : Obligations.EnumerationCodesAndEdgePolarity :=
  ⟨⟨rfl, rfl, rfl, rfl⟩, fun _ => admissible_fields_ne_reserved, ⟨rfl, rfl⟩, ⟨rfl, rfl⟩,
    fun _ _ => ⟨edge_rising, edge_falling⟩⟩

/-! ## The gate vector (R59) -/

theorem highBit_eq (p : Phase) : highBit p = 5 - 2 * (phaseCode p).toNat := by
  cases p <;> rfl

theorem lowBit_eq (p : Phase) : lowBit p = 4 - 2 * (phaseCode p).toNat := by
  cases p <;> rfl

theorem highBit_inj {p q : Phase} : highBit p = highBit q ↔ p = q := by
  cases p <;> cases q <;> decide

theorem lowBit_inj {p q : Phase} : lowBit p = lowBit q ↔ p = q := by
  cases p <;> cases q <;> decide

/-- High-side switches have odd bits, low-side switches even ones. -/
theorem highBit_ne_lowBit (p q : Phase) : highBit p ≠ lowBit q := by
  cases p <;> cases q <;> decide

theorem highBit_lt (p : Phase) : highBit p < 6 := by
  cases p <;> decide

theorem lowBit_lt (p : Phase) : lowBit p < 6 := by
  cases p <;> decide

/-- R59: exactly the bits of the two named switches are set. -/
theorem gateDecode_getLsbD (hi lo : Phase) (k : Nat) :
    (gateDecode hi lo).getLsbD k = (k == highBit hi || k == lowBit lo) := by
  have high := highBit_lt hi
  have low := lowBit_lt lo
  simp only [gateDecode, ← highBit_eq, ← lowBit_eq, ← BitVec.twoPow_eq, BitVec.getLsbD_or, BitVec.getLsbD_twoPow,
    high, low, beq_eq_decide, eq_comm (a := k), decide_true, Bool.true_and]

/-- The high-side switch that is selected is the one of `hi`. -/
theorem gateDecode_highBit {hi lo p : Phase} : (gateDecode hi lo).getLsbD (highBit p) = true ↔ p = hi := by
  simp [gateDecode_getLsbD, highBit_ne_lowBit, highBit_inj]

/-- The low-side switch that is selected is the one of `lo`. -/
theorem gateDecode_lowBit {hi lo p : Phase} : (gateDecode hi lo).getLsbD (lowBit p) = true ↔ p = lo := by
  simp [gateDecode_getLsbD, (highBit_ne_lowBit _ _).symm, lowBit_inj]

/-- Settles O8: the bits by `gateDecode_getLsbD`; a phase with both switches selected would be `hi` and `lo` at once;
the six values are computed. -/
theorem gateDecodeAssertsExactlyTheTwoNamedSwitches : Obligations.GateDecodeAssertsExactlyTheTwoNamedSwitches := by
  refine ⟨fun hi lo k _ => ?_, ?_, rfl, rfl, rfl, rfl, rfl, rfl⟩
  · rw [gateDecode_getLsbD, highBit_eq, lowBit_eq]
  · rintro hi lo p differ ⟨high, low⟩
    exact differ ((gateDecode_highBit.mp high).symm.trans (gateDecode_lowBit.mp low))

/-! ## The select vector (R61) -/

/-- The conditions from the least significant bit up: bit `k` of the vector is the `k`-th of them. -/
theorem selOf_getLsbD (rst mode cntZ atFloor tu zcPend zcHit : Bool) (k : Nat) :
    (selOf rst mode cntZ atFloor tu zcPend zcHit).getLsbD k =
      [zcHit, zcPend, tu, atFloor, cntZ, mode, rst].getD k false := by
  match k with
  | 0 | 1 | 2 | 3 | 4 | 5 | 6 =>
    simp only [selOf, BitVec.getLsbD_append, BitVec.getLsbD_ofBool]
    rfl
  | k + 7 => simp [BitVec.getLsbD_of_ge]

/-- Taking the inputs changes neither the step nor the table, so the entry monitored is that of the state before. -/
@[simp] theorem currentEntry_takeStimulus (s : State) : currentEntry (takeStimulus s) = currentEntry s := by
  simp [currentEntry]

/-- R111: `zc_hit` at a clock edge is what the sampled inputs show against the state before it. -/
theorem zcHit_takeStimulus_of_edge {s : State} {p : Pins} (h : nextStimulus s = .edge p) :
    zcHit (takeStimulus s) = qualifies s p := by
  simp [zcHit, qualifies, takeStimulus_pins_of_edge h]

/-- R61: the vector of a clock edge, from its inputs and the state before the edge. -/
theorem selVector_takeStimulus_of_edge {s : State} {p : Pins} (h : nextStimulus s = .edge p) :
    selVector (takeStimulus s) =
      selOf p.rst (decide (s.mode = .running)) (decide (s.cnt = 0)) (decide (s.dly ≤ s.cfg.delayFloor)) p.tu
        s.zcPend (qualifies s p) := by
  simp [selVector, cntZ, atFloor, takeStimulus_pins_of_edge h, zcHit_takeStimulus_of_edge h, beq_eq_decide]

/-- Settles O11: the word presented at a clock edge is the vector of its conditions, read back bit by bit. -/
theorem selectVectorReadsTheSevenConditions : Obligations.SelectVectorReadsTheSevenConditions := by
  intro s p edge
  refine ⟨_, presentedWord_of_edge edge, ?_⟩
  rw [selVector_takeStimulus_of_edge edge]
  have bit := selOf_getLsbD p.rst (decide (s.mode = .running)) (decide (s.cnt = 0))
    (decide (s.dly ≤ s.cfg.delayFloor)) p.tu s.zcPend (qualifies s p)
  exact ⟨bit 6, bit 5, bit 4, bit 3, bit 2, bit 1, bit 0⟩

end Sys2Proof.Machine
end

section
/-! PROOFS of the family 40_commutation_table.md: the lookup of R80. -/

namespace Sys2Proof.Machine

/-! ## Reading an encoded entry back (R60) -/

/-- R57: a polarity is the one its code names. -/
@[simp] theorem polarityOfCode_polarityCode (p : Polarity) : polarityOfCode (polarityCode p) = p := by
  cases p <;> rfl

/-- Each field of a concatenation, of any widths, starts where those below it end. -/
theorem extractLsb'_append_fields {u v w x : Nat} (a : BitVec u) (b : BitVec v) (c : BitVec w) (d : BitVec x) :
    (a ++ b ++ c ++ d).extractLsb' (x + w + v) u = a ∧ (a ++ b ++ c ++ d).extractLsb' (x + w) v = b ∧
      (a ++ b ++ c ++ d).extractLsb' x w = c ∧ (a ++ b ++ c ++ d).extractLsb' 0 x = d := by
  simp [BitVec.extractLsb'_append_eq_of_le, BitVec.extractLsb'_append_eq_of_add_le, Nat.add_assoc]

/-- R60: an encoded entry holds the codes of its parts at the places where `Decode7` reads them. -/
theorem encode7_fields (e : CommutationEntry) :
    (encode7 e).extractLsb' 5 2 = phaseCode e.hi ∧ (encode7 e).extractLsb' 3 2 = phaseCode e.lo ∧
      (encode7 e).extractLsb' 1 2 = phaseCode e.flt ∧ (encode7 e).extractLsb' 0 1 = polarityCode e.pol :=
  extractLsb'_append_fields (phaseCode e.hi) (phaseCode e.lo) (phaseCode e.flt) (polarityCode e.pol)

/-- R60: `Decode7` undoes `Encode7`, also for an entry that no valid table holds. -/
theorem decode7_encode7 (e : CommutationEntry) : decode7 (encode7 e) = some e := by
  obtain ⟨hi, lo, flt, pol⟩ := encode7_fields e
  exact decode7_eq_some.mpr ⟨hi, lo, flt, by rw [pol, polarityOfCode_polarityCode]⟩

/-! ## The lookup (R80) -/

/-- R40: the ROM word at an address encodes the entry that is looked up there. -/
theorem memRead_eq_encode7 (c : Cfg) (a : Nat) : memRead c a = encode7 (entryFor c a) := rfl

/-- R80: the entry looked up at an address is the decoded ROM word there. -/
theorem decode7_memRead (c : Cfg) (a : Nat) : decode7 (memRead c a) = some (entryFor c a) := by
  rw [memRead_eq_encode7, decode7_encode7]

/-- R80's example: the entry at step 3 of the reference table. -/
theorem entryFor_three_of_tableRef {c : Cfg} (h : c.table = tableRef) :
    entryFor c 3 = ⟨.V, .U, .W, .rising⟩ := by
  rw [entryFor, h]
  rfl

/-- Settles O6: `entryFor` is the table at the address modulo 6, decoding undoes the encoding held in the ROM, and the
word of R80's example encodes the entry there. -/
theorem romLookupDecodesTheTableEntry : Obligations.RomLookupDecodesTheTableEntry := by
  refine ⟨fun c a _ => ⟨rfl, decode7_memRead c a, entryFor_mod c a⟩, fun c reference => ?_⟩
  have entry := entryFor_three_of_tableRef reference
  refine ⟨entry, ?_⟩
  rw [memRead_eq_encode7, entry]
  rfl

end Sys2Proof.Machine
end

section
/-! PROOFS of the family 41_startup_sequencer.md: what a clock edge of Starting selects, and what HOLD, FSTEP and a tick
of the ramp timer do. -/

namespace Sys2Proof.Machine

/-! ## What a clock edge selects (R61, R62) -/

/-- The operation of a clock edge of Starting without reset: a tick where the wait has run out, the last one at the
floor; otherwise the strobe alone decides. No argument for the comparators, the samples or the request: that is R90. -/
def startingSelection (cntZ atFloor tu : Bool) : Instr :=
  if cntZ then (if atFloor then .fstepLast else .fstep) else (if tu then .wait else .hold)

theorem startingSelection_mem : ∀ cntZ atFloor tu : Bool, startingSelection cntZ atFloor tu ∈ startingOps := by
  decide

/-- In Starting the last two condition bits, `zc_pend` and `zc_hit`, are don't-cares of every row (R62). -/
theorem decode_selOf_starting : ∀ cntZ atFloor tu zcPend zcHit : Bool,
    decode (.sel (selOf false false cntZ atFloor tu zcPend zcHit)) = .op (startingSelection cntZ atFloor tu) := by
  decide

/-- In Running no vector without reset selects an operation of the sequencer. -/
theorem decode_selOf_running : ∀ cntZ atFloor tu zcPend zcHit : Bool,
    ∃ i ∈ runningOps, decode (.sel (selOf false true cntZ atFloor tu zcPend zcHit)) = .op i := by
  decide

theorem runningOps_disjoint_startingOps : ∀ i ∈ runningOps, i ∉ startingOps := by decide

theorem decode_of_starting_edge {s : State} {p : Pins} (edge : nextStimulus s = .edge p) (mode : s.mode = .starting)
    (rst : p.rst = false) :
    decode (presentedWord s) =
      .op (startingSelection (decide (s.cnt = 0)) (decide (s.dly ≤ s.cfg.delayFloor)) p.tu) := by
  rw [presentedWord_of_edge edge, selVector_takeStimulus_of_edge edge, rst, mode]
  exact decode_selOf_starting ..

theorem decode_of_running_edge {s : State} {p : Pins} (edge : nextStimulus s = .edge p) (mode : s.mode = .running)
    (rst : p.rst = false) : ∃ i ∈ runningOps, decode (presentedWord s) = .op i := by
  rw [presentedWord_of_edge edge, selVector_takeStimulus_of_edge edge, rst, mode]
  exact decode_selOf_running ..

/-- R91: a wait that has run out at or below the floor is followed by the boundary step. -/
theorem decode_of_tick_at_floor {s : State} {p : Pins} (edge : nextStimulus s = .edge p) (mode : s.mode = .starting)
    (rst : p.rst = false) (tick : s.cnt = 0) (floor : s.dly ≤ s.cfg.delayFloor) :
    decode (presentedWord s) = .op .fstepLast := by
  simp [decode_of_starting_edge edge mode rst, startingSelection, tick, floor]

/-- R91: above the floor it is followed by a forced step that continues the ramp. -/
theorem decode_of_tick_above_floor {s : State} {p : Pins} (edge : nextStimulus s = .edge p)
    (mode : s.mode = .starting) (rst : p.rst = false) (tick : s.cnt = 0) (above : s.cfg.delayFloor < s.dly) :
    decode (presentedWord s) = .op .fstep := by
  simp [decode_of_starting_edge edge mode rst, startingSelection, tick, Nat.not_le.mpr above]

/-! ## The entry on the pins after an advance (R81) -/

/-- The modulus of the advance is that of the lookup (R42, R80). -/
theorem advancedEntry_eq (s : State) : advancedEntry s = entryFor s.cfg (s.step.toNat + 1) :=
  entryFor_mod s.cfg (s.step.toNat + 1)

@[simp] theorem currentEntry_applyEntry (s : State) : currentEntry (applyEntry s) = advancedEntry s := by
  simp only [currentEntry, applyEntry_cfg, applyEntry_step, advancedStep_toNat, advancedEntry]

@[simp] theorem currentEntry_loadNextWait (s : State) : currentEntry (loadNextWait s) = currentEntry s := rfl

@[simp] theorem advancedEntry_sampleEdge (s : State) : advancedEntry (sampleEdge s) = advancedEntry s := rfl

/-- R94: after FSTEP the entry being driven and monitored is the one after the old step's. -/
theorem currentEntry_after_fstep (s : State) :
    currentEntry (loadNextWait (applyEntry (sampleEdge s))) = entryFor s.cfg (s.step.toNat + 1) := by
  rw [currentEntry_loadNextWait, currentEntry_applyEntry, advancedEntry_sampleEdge, advancedEntry_eq]

/-- Everything FSTEP writes (R94). -/
theorem fstep_writes (s : State) (mode : s.mode = .starting) :
    loadNextWait (applyEntry (sampleEdge s)) =
      { s with
        step := advancedStep s
        en := true
        dly := s.dly - s.cfg.delayDec
        cnt := s.dly - s.cfg.delayDec
        cmpQ := cmpOf s.pins
        events := [.setPattern (advancedEntry s).hi (advancedEntry s).lo,
          .arm (advancedEntry s).flt (advancedEntry s).pol] } := by
  have kept : (if s.mode = .running then true else s.armed) = s.armed := by simp [mode]
  rw [← tsub_eq]
  conv => rhs; rw [← kept]
  rfl

/-- Settles O17: the row of HOLD in the operation map; its meaning is the sampling alone. -/
theorem holdOnlySamples : Obligations.HoldOnlySamples := by
  refine ⟨fun v => ?_, fun s => execHold_next.mpr rfl⟩
  obtain ⟨-, hold, -⟩ := selectMapFollowsMaskAndMatch v
  exact hold

/-- Settles O19: the row of FSTEP; what it writes, with the new entry on the pins; and a delay of 0 is at the floor. -/
theorem fstepForcesAStepAndShortensTheDelay : Obligations.FstepForcesAStepAndShortensTheDelay := by
  refine ⟨fun v => ?_, fun s mode => ?_, fun s p mode tick zero edge rst => ?_⟩
  · obtain ⟨-, -, -, fstep, -⟩ := selectMapFollowsMaskAndMatch v
    exact fstep
  · have entry := currentEntry_after_fstep s
    refine ⟨_, execFstep_next.mpr ⟨mode, rfl⟩, fstep_writes s mode, ?_, ?_, ?_⟩
    · rw [gates_of_en rfl, entry]
    · rw [sensePh, entry]
    · rw [sensePol, entry]
  · exact decode_of_tick_at_floor edge mode rst tick (zero ▸ Nat.zero_le _)

/-! ## The tick of the ramp timer (R91) -/

/-- The delay above the floor is positive, so that a positive decrement makes it smaller, also where it truncates. -/
theorem nextDelay_lt {c : Cfg} {d d' : Nat} (dec : 1 ≤ c.delayDec) (h : nextDelay c d = some d') : d' < d := by
  obtain ⟨above, rfl⟩ := nextDelay_some.mp h
  rw [tsub_eq]
  omega

/-- A clock edge of an admissible configuration answers what its operation answers. -/
theorem step_of_edge {s t : State} {p : Pins} {i : Instr} (edge : nextStimulus s = .edge p) (adm : Admissible s.cfg)
    (selected : decode (presentedWord s) = .op i) (performed : exec i (takeStimulus s) = .next t) :
    step s = .next t :=
  step_next.mpr ⟨(parameterRefusal_of_edge edge).mpr adm, i, selected, performed⟩

/-- Settles O57: the two answers of `next_delay`; at a tick the same comparison selects FSTEP_LAST or FSTEP. -/
theorem nextDelayDecidesTheTick : Obligations.NextDelayDecidesTheTick := by
  refine ⟨fun c d => nextDelay_none.mpr, fun c d above => nextDelay_some.mpr ⟨above, (tsub_eq ..).symm⟩,
    fun c d d' => nextDelay_lt, fun s p adm mode tick edge rst => ?_⟩
  have mode_taken : (takeStimulus s).mode = .starting := by rw [takeStimulus_mode, mode]
  have advanced : (advancedStep (sampleEdge (takeStimulus s))).toNat = (s.step.toNat + 1) % 6 := by
    rw [advancedStep_toNat, sampleEdge_step, takeStimulus_step, inc6]
  rcases Nat.lt_or_ge s.cfg.delayFloor s.dly with above | floor
  · have answer : nextDelay s.cfg s.dly = some (tsub s.dly s.cfg.delayDec) := nextDelay_some.mpr ⟨above, rfl⟩
    refine ⟨_, step_of_edge edge adm (decode_of_tick_above_floor edge mode rst tick above)
      (execFstep_next.mpr ⟨mode_taken, rfl⟩), advanced, ?_, ?_⟩
    · simp [answer]
    · simp [answer, decrementedDelay, mode]
  · have answer : nextDelay s.cfg s.dly = none := nextDelay_none.mpr floor
    refine ⟨_, step_of_edge edge adm (decode_of_tick_at_floor edge mode rst tick floor)
      (execFstepLast_next.mpr ⟨mode_taken, rfl⟩), advanced, ?_, ?_⟩
    · simp
    · simp [answer]

/-! ## Independence from the comparators (R90) -/

/-- An operation of the sequencer reads neither the stored samples nor, of the pins, anything but what it copies. -/
theorem exec_startingOps_of_other_samples {i : Instr} {u t : State} (mem : i ∈ startingOps)
    (performed : exec i u = .next t) (q : BitVec 3) (p : Pins) :
    exec i { u with cmpQ := q, pins := p } = .next { t with cmpQ := cmpOf p, pins := p } := by
  simp only [startingOps, List.mem_cons, List.not_mem_nil, or_false] at mem
  rcases mem with rfl | rfl | rfl | rfl
  · cases execHold_next.mp performed
    exact execHold_next.mpr rfl
  · cases execWait_next.mp performed
    exact execWait_next.mpr rfl
  · obtain ⟨mode, rfl⟩ := execFstep_next.mp performed
    exact execFstep_next.mpr ⟨mode, rfl⟩
  · obtain ⟨mode, rfl⟩ := execFstepLast_next.mp performed
    exact execFstepLast_next.mpr ⟨mode, rfl⟩

/-- A listed clock edge is the next stimulus and, taken, leaves its inputs in `pins`. -/
theorem takeStimulus_of_listed_edge {s : State} {p : Pins} {l : List Stimulus} (listed : s.stimulus = .edge p :: l) :
    nextStimulus s = .edge p ∧ takeStimulus s = { s with pins := p, stimulus := l } := by
  simp [nextStimulus, takeStimulus, listed]

/-- R90: with the mode, the counters and the strobe the same, both edges select the same operation. -/
theorem step_starting_of_other_samples {s t : State} {p p' : Pins} {l : List Stimulus} (q : BitVec 3)
    (listed : s.stimulus = .edge p :: l) (mode : s.mode = .starting) (rst : p.rst = false) (rst' : p'.rst = false)
    (tu : p'.tu = p.tu) (stepped : step s = .next t) :
    step { s with cmpQ := q, stimulus := .edge p' :: l } = .next { t with cmpQ := cmpOf p', pins := p' } := by
  obtain ⟨edge, taken⟩ := takeStimulus_of_listed_edge listed
  obtain ⟨accepted, i, selected, performed⟩ := step_next.mp stepped
  rw [decode_of_starting_edge edge mode rst] at selected
  cases selected
  refine step_of_edge (p := p') rfl ((parameterRefusal_of_edge edge).mp accepted)
    (decode_of_starting_edge rfl mode rst') ?_
  have other := exec_startingOps_of_other_samples (startingSelection_mem ..) performed q p'
  rw [taken] at other
  rw [tu]
  exact other

/-- Settles O32: two runs that differ in what the comparators say, and the operations of each mode. -/
theorem startupIgnoresComparators : Obligations.StartupIgnoresComparators := by
  refine ⟨fun _ _ _ _ q _ => step_starting_of_other_samples q, fun s p edge rst => ?_⟩
  cases mode : s.mode with
  | starting =>
    exact ⟨_, decode_of_starting_edge edge mode rst, iff_of_true (startingSelection_mem ..) rfl⟩
  | running =>
    obtain ⟨i, mem, selected⟩ := decode_of_running_edge edge mode rst
    exact ⟨i, selected, iff_of_false (runningOps_disjoint_startingOps i mem) nofun⟩

end Sys2Proof.Machine
end

section
/-! PROOFS of the family 42_commutation_controller.md: the sampling of the comparators, the writers of step and
mode, and what RUN_IDLE, ZCDET and ZCADV do. -/

namespace Sys2Proof.Machine

/-! ## What a step selects, by its stimulus and the mode (R62, R133, R154) -/

/-- `rst` is the most significant bit and the only one that RESET's row fixes (R62). -/
theorem decode_selOf_rst : ∀ mode cntZ atFloor tu zcPend zcHit : Bool,
    decode (.sel (selOf true mode cntZ atFloor tu zcPend zcHit)) = .op .reset := by
  decide

/-- In Running a pending request selects the handler, whether or not another edge qualifies (R62, R144). -/
theorem decode_selOf_pending : ∀ cntZ atFloor tu zcHit : Bool,
    decode (.sel (selOf false true cntZ atFloor tu true zcHit)) = .op .zcadv := by
  decide

theorem decode_of_reset_edge {s : State} {p : Pins} (edge : nextStimulus s = .edge p) (rst : p.rst = true) :
    decode (presentedWord s) = .op .reset := by
  rw [presentedWord_of_edge edge, selVector_takeStimulus_of_edge edge, rst]
  exact decode_selOf_rst ..

theorem decode_of_pending_edge {s : State} {p : Pins} (edge : nextStimulus s = .edge p) (mode : s.mode = .running)
    (pending : s.zcPend = true) (rst : p.rst = false) : decode (presentedWord s) = .op .zcadv := by
  rw [presentedWord_of_edge edge, selVector_takeStimulus_of_edge edge, rst, mode, pending]
  exact decode_selOf_pending ..

/-- What a clock edge selects: RESET under `rst`, else an operation of the mode. -/
theorem selected_of_edge {s : State} {p : Pins} {i : Instr} (edge : nextStimulus s = .edge p)
    (selected : decode (presentedWord s) = .op i) :
    (p.rst = true ∧ i = .reset) ∨ (p.rst = false ∧ s.mode = .starting ∧ i ∈ startingOps) ∨
      (p.rst = false ∧ s.mode = .running ∧ i ∈ runningOps) := by
  cases rst : p.rst with
  | true =>
    rw [decode_of_reset_edge edge rst] at selected
    cases selected
    exact .inl ⟨rfl, rfl⟩
  | false =>
    cases mode : s.mode with
    | starting =>
      rw [decode_of_starting_edge edge mode rst] at selected
      cases selected
      exact .inr (.inl ⟨rfl, rfl, startingSelection_mem ..⟩)
    | running =>
      obtain ⟨j, mem, selected_j⟩ := decode_of_running_edge edge mode rst
      rw [selected_j] at selected
      cases selected
      exact .inr (.inr ⟨rfl, rfl, mem⟩)

/-- A request vector selects an operation of the neighbour alone (R133). -/
theorem decode_thr_mem {r : ThrReq} {i : Instr} (selected : decode (.thr r) = .op i) : i ∈ throttleOps := by
  cases found : thrRows.find? (fun row => r == row.value) with
  | none => simp [decode, found] at selected
  | some row =>
    have row_ops : ∀ row ∈ thrRows, row.op ∈ throttleOps := by decide
    simp only [decode, found, Decoded.op.injEq] at selected
    exact selected ▸ row_ops row (List.mem_of_find?_eq_some found)

/-- R154: an operation of Running is selected in Running only. -/
theorem running_of_selected {s : State} {i : Instr} (mem : i ∈ runningOps)
    (selected : decode (presentedWord s) = .op i) : s.mode = .running := by
  cases stimulus : nextStimulus s with
  | edge p =>
    rcases selected_of_edge stimulus selected with ⟨-, rfl⟩ | ⟨-, -, starting⟩ | ⟨-, mode, -⟩
    · exact absurd mem (by decide)
    · exact absurd starting (runningOps_disjoint_startingOps i mem)
    · exact mode
  | request r =>
    have disjoint : ∀ j ∈ runningOps, j ∉ throttleOps := by decide
    rw [presentedWord_of_request stimulus] at selected
    exact absurd (decode_thr_mem selected) (disjoint i mem)

/-! ## The sampling of the comparators (R110) -/

/-- R33: the levels from the least significant bit up are those of U, V, W. -/
theorem cmpOf_getLsbD (p : Pins) (k : Nat) :
    (cmpOf p).getLsbD k = [p.cmpU, p.cmpV, p.cmpW].getD k false := by
  match k with
  | 0 | 1 | 2 =>
    simp only [cmpOf, BitVec.getLsbD_append, BitVec.getLsbD_ofBool]
    rfl
  | k + 3 => simp [BitVec.getLsbD_of_ge]

/-- R110: every operation of either mode stores the levels that stand in `pins`. -/
theorem exec_samples {i : Instr} {s t : State} (mem : i ∈ startingOps ∨ i ∈ runningOps)
    (performed : exec i s = .next t) : t.cmpQ = cmpOf s.pins := by
  simp only [startingOps, runningOps, List.mem_cons, List.not_mem_nil, or_false] at mem
  rcases mem with (rfl | rfl | rfl | rfl) | (rfl | rfl | rfl)
  · rw [execHold_next.mp performed, sampleEdge_cmpQ]
  · rw [execWait_next.mp performed, countDown_cmpQ, sampleEdge_cmpQ]
  · rw [(execFstep_next.mp performed).2, loadNextWait_cmpQ, applyEntry_cmpQ, sampleEdge_cmpQ]
  · rw [(execFstepLast_next.mp performed).2, transitionToRunning_cmpQ, applyEntry_cmpQ, sampleEdge_cmpQ]
  · rw [execRunIdle_next.mp performed, sampleEdge_cmpQ]
  · rw [execZcdet_next.mp performed, requestZeroCrossing_cmpQ, sampleEdge_cmpQ]
  · rw [execZcadv_next.mp performed, onZeroCrossingEvent_cmpQ, sampleEdge_cmpQ]

/-- R110: a clock edge stores the levels of its own inputs; under reset it stores 000. -/
theorem step_samples {s t : State} {p : Pins} (edge : nextStimulus s = .edge p) (stepped : step s = .next t) :
    t.cmpQ = if p.rst then 0b000#3 else cmpOf p := by
  obtain ⟨-, i, selected, performed⟩ := step_next.mp stepped
  have sampled (rst : p.rst = false) (mem : i ∈ startingOps ∨ i ∈ runningOps) :
      t.cmpQ = if p.rst then 0b000#3 else cmpOf p := by
    simp [exec_samples mem performed, takeStimulus_pins_of_edge edge, rst]
  rcases selected_of_edge edge selected with ⟨rst, rfl⟩ | ⟨rst, -, mem⟩ | ⟨rst, -, mem⟩
  · simp [execReset_next.mp performed, rst]
  · exact sampled rst (.inl mem)
  · exact sampled rst (.inr mem)

/-- Settles O30: what the edge stores, read off bit by bit. -/
theorem comparatorsAreSampledAtEveryEdge : Obligations.ComparatorsAreSampledAtEveryEdge := by
  intro s t p edge stepped
  rw [step_samples edge stepped]
  cases rst : p.rst with
  | true => simp
  | false => exact ⟨cmpOf_getLsbD p 0, cmpOf_getLsbD p 1, cmpOf_getLsbD p 2⟩

/-! ## The writers of step and mode (R105) -/

/-- R81: the operations that reach ApplyEntry advance the step by one increment modulo 6. -/
theorem exec_advances_step {i : Instr} {s t : State} (mem : i ∈ [Instr.fstep, .fstepLast, .zcadv])
    (performed : exec i s = .next t) : t.step.toNat = (s.step.toNat + 1) % 6 := by
  have advanced : t.step = advancedStep s := by
    simp only [List.mem_cons, List.not_mem_nil, or_false] at mem
    rcases mem with rfl | rfl | rfl
    · rw [(execFstep_next.mp performed).2]; rfl
    · rw [(execFstepLast_next.mp performed).2]; rfl
    · rw [execZcadv_next.mp performed]; rfl
  rw [advanced, advancedStep_toNat, inc6]

/-- R105: no other operation but RESET writes the step. -/
theorem exec_keeps_step {i : Instr} {s t : State} (other : i ∉ [Instr.reset, .fstep, .fstepLast, .zcadv])
    (performed : exec i s = .next t) : t.step = s.step := by
  cases i with
  | reset | fstep | fstepLast | zcadv => simp at other
  | hold => rw [execHold_next.mp performed, sampleEdge_step]
  | wait => rw [execWait_next.mp performed, countDown_step, sampleEdge_step]
  | runIdle => rw [execRunIdle_next.mp performed, sampleEdge_step]
  | zcdet => rw [execZcdet_next.mp performed, requestZeroCrossing_step, sampleEdge_step]
  | thrInc => rw [execThrInc_next.mp performed, increase_step]
  | thrDec => rw [execThrDec_next.mp performed, decrease_step]
  | thrNone => rw [execThrNone_next.mp performed, noRequest_step]

/-- R105: no operation but FSTEP_LAST and RESET writes the mode. -/
theorem exec_keeps_mode {i : Instr} {s t : State} (other : i ∉ [Instr.reset, .fstepLast])
    (performed : exec i s = .next t) : t.mode = s.mode := by
  cases i with
  | reset | fstepLast => simp at other
  | hold => rw [execHold_next.mp performed, sampleEdge_mode]
  | wait => rw [execWait_next.mp performed, countDown_mode, sampleEdge_mode]
  | fstep => rw [(execFstep_next.mp performed).2, loadNextWait_mode, applyEntry_mode, sampleEdge_mode]
  | runIdle => rw [execRunIdle_next.mp performed, sampleEdge_mode]
  | zcdet => rw [execZcdet_next.mp performed, requestZeroCrossing_mode, sampleEdge_mode]
  | zcadv => rw [execZcadv_next.mp performed, onZeroCrossingEvent_mode, sampleEdge_mode]
  | thrInc => rw [execThrInc_next.mp performed, increase_mode]
  | thrDec => rw [execThrDec_next.mp performed, decrease_mode]
  | thrNone => rw [execThrNone_next.mp performed, noRequest_mode]

/-- R106: a forced step is answered in Starting only. -/
theorem starting_of_forced_step {i : Instr} {s t : State} (forced : i = .fstep ∨ i = .fstepLast)
    (performed : exec i s = .next t) : s.mode = .starting := by
  rcases forced with rfl | rfl
  · exact (execFstep_next.mp performed).1
  · exact (execFstepLast_next.mp performed).1

/-- Settles O42: the step selects one operation and performs it on the taken inputs, which write neither step nor mode;
then each clause is what that operation writes. The mode of ZCADV comes from its selection, not from its meaning. -/
theorem stepIsWrittenOnlyByItsOwners : Obligations.StepIsWrittenOnlyByItsOwners := by
  intro s t i stepped selected
  obtain ⟨-, j, selected_j, performed⟩ := step_next.mp stepped
  obtain rfl : i = j := by simpa [selected] using selected_j
  have advances (mem : i ∈ [Instr.fstep, .fstepLast, .zcadv]) : t.step.toNat = (s.step.toNat + 1) % 6 := by
    rw [exec_advances_step mem performed, takeStimulus_step]
  refine ⟨fun forced => ?_, fun handler => ?_, fun other => ?_, fun other => ?_⟩
  · have mode : s.mode = .starting := by rw [← takeStimulus_mode s, starting_of_forced_step forced performed]
    exact ⟨mode, advances (by rcases forced with rfl | rfl <;> decide)⟩
  · subst handler
    exact ⟨running_of_selected (by decide) selected, advances (by decide)⟩
  · rw [exec_keeps_step other performed, takeStimulus_step]
  · rw [exec_keeps_mode other performed, takeStimulus_mode]

/-! ## RUN_IDLE (R115) -/

/-- Settles O22: the row of RUN_IDLE in the operation map; its meaning is the sampling alone. -/
theorem runIdleOnlySamples : Obligations.RunIdleOnlySamples := by
  refine ⟨fun v => ?_, fun s => execRunIdle_next.mpr rfl⟩
  obtain ⟨-, -, -, -, -, runIdle, -⟩ := selectMapFollowsMaskAndMatch v
  exact runIdle

/-! ## ZCDET (R113) -/

/-- The gates follow from the step, `en` and the table alone (R34). -/
theorem gates_congr {s t : State} (cfg : t.cfg = s.cfg) (step : t.step = s.step) (en : t.en = s.en) :
    gates t = gates s := by
  simp only [gates, currentEntry, cfg, step, en]

/-- Settles O23: the row of ZCDET; the request it raises, which leaves what the gates follow from; and the row of the
handler at the next edge. -/
theorem zcdetRaisesTheRequestAndDisarms : Obligations.ZcdetRaisesTheRequestAndDisarms := by
  refine ⟨fun v => ?_, fun s => ?_, fun s p mode pending edge rst => decode_of_pending_edge edge mode pending rst⟩
  · obtain ⟨-, -, -, -, -, -, zcdet, -⟩ := selectMapFollowsMaskAndMatch v
    exact zcdet
  · exact ⟨_, execZcdet_next.mpr rfl, rfl, gates_congr rfl rfl rfl⟩

/-! ## ZCADV (R114) -/

@[simp] theorem currentEntry_onZeroCrossingEvent (s : State) :
    currentEntry (onZeroCrossingEvent s) = advancedEntry s :=
  currentEntry_applyEntry s

/-- R114: after the handler the entry being driven and monitored is the one after the old step's. -/
theorem currentEntry_after_zcadv (s : State) :
    currentEntry (onZeroCrossingEvent (sampleEdge s)) = entryFor s.cfg (s.step.toNat + 1) := by
  rw [currentEntry_onZeroCrossingEvent, advancedEntry_sampleEdge, advancedEntry_eq]

/-- Everything ZCADV writes in Running (R114). -/
theorem zcadv_writes (s : State) (mode : s.mode = .running) :
    onZeroCrossingEvent (sampleEdge s) =
      { s with
        step := advancedStep s
        en := true
        armed := true
        zcPend := false
        cmpQ := cmpOf s.pins
        events := [.setPattern (advancedEntry s).hi (advancedEntry s).lo,
          .arm (advancedEntry s).flt (advancedEntry s).pol] } := by
  simp only [onZeroCrossingEvent, applyEntry_eq, sampleEdge_mode, mode, ↓reduceIte]
  rfl

/-- Settles O24: the row of ZCADV; what it writes in Running, with the new entry on the pins. -/
theorem zcadvServesTheRequest : Obligations.ZcadvServesTheRequest := by
  refine ⟨fun v => ?_, fun s mode => ?_⟩
  · obtain ⟨-, -, -, -, -, -, -, zcadv⟩ := selectMapFollowsMaskAndMatch v
    exact zcadv
  · have entry := currentEntry_after_zcadv s
    refine ⟨_, execZcadv_next.mpr rfl, zcadv_writes s mode, ?_, ?_, ?_⟩
    · rw [gates_of_en rfl, entry]
    · rw [sensePh, entry]
    · rw [sensePol, entry]

end Sys2Proof.Machine
end

section
/-! PROOFS of the family 45_throttle_neighbour.md: the three requests of the neighbour, the saturation of the duty at
its bounds, and the reserved request. -/

namespace Sys2Proof.Machine

/-! ## One request, below and at its bound (R131, R132) -/

theorem increase_of_duty_lt {s : State} (below : s.duty < s.cfg.maxDuty) :
    increase s = { s with duty := s.duty + 1, thrEvents := [.setDuty (s.duty + 1)] } := by
  rcases increase_cases s with ⟨-, raised⟩ | ⟨bound, -⟩
  · exact raised
  · exact absurd below (Int.not_lt.mpr bound)

theorem increase_of_maxDuty_le {s : State} (bound : s.cfg.maxDuty ≤ s.duty) :
    increase s = { s with thrEvents := [] } := by
  rcases increase_cases s with ⟨below, -⟩ | ⟨-, kept⟩
  · exact absurd below (Int.not_lt.mpr bound)
  · exact kept

theorem decrease_of_lt_duty {s : State} (above : s.cfg.minDuty < s.duty) :
    decrease s = { s with duty := s.duty - 1, thrEvents := [.setDuty (s.duty - 1)] } := by
  rcases decrease_cases s with ⟨-, lowered⟩ | ⟨bound, -⟩
  · exact lowered
  · exact absurd above (Int.not_lt.mpr bound)

theorem decrease_of_duty_le {s : State} (bound : s.duty ≤ s.cfg.minDuty) :
    decrease s = { s with thrEvents := [] } := by
  rcases decrease_cases s with ⟨above, -⟩ | ⟨-, kept⟩
  · exact absurd above (Int.not_lt.mpr bound)
  · exact kept

/-! ## Repeated requests -/

/-- How far the duty is below `MAX_DUTY`; negative above it. -/
def roomAbove (s : State) : Int := s.cfg.maxDuty - s.duty

/-- How far the duty is above `MIN_DUTY`; negative below it. -/
def roomBelow (s : State) : Int := s.duty - s.cfg.minDuty

/-- `increase()` uses up one unit of the room above, as long as there is any (R131). -/
theorem roomAbove_increase {s : State} (room : 0 ≤ roomAbove s) :
    roomAbove (increase s) = max (roomAbove s - 1) 0 := by
  unfold roomAbove at *
  rw [increase_cfg]
  rcases increase_cases s with ⟨below, raised⟩ | ⟨bound, kept⟩
  · rw [raised]; dsimp only; omega
  · rw [kept]; dsimp only; omega

/-- `decrease()` uses up one unit of the room below, as long as there is any (R132). -/
theorem roomBelow_decrease {s : State} (room : 0 ≤ roomBelow s) :
    roomBelow (decrease s) = max (roomBelow s - 1) 0 := by
  unfold roomBelow at *
  rw [decrease_cfg]
  rcases decrease_cases s with ⟨above, lowered⟩ | ⟨bound, kept⟩
  · rw [lowered]; dsimp only; omega
  · rw [kept]; dsimp only; omega

/-- The one induction behind both saturations: what uses up one unit of a room per call, and stops at 0, has used up
`n` units, or all of it, after `n` calls. -/
theorem iterate_uses_up_room {f : State → State} {room : State → Int}
    (uses : ∀ s, 0 ≤ room s → room (f s) = max (room s - 1) 0) (n : Nat) (s : State) (nonneg : 0 ≤ room s) :
    room (f^[n] s) = max (room s - n) 0 := by
  induction n generalizing s with
  | zero => simp [nonneg]
  | succ n ih =>
    have once : room (f s) = max (room s - 1) 0 := uses s nonneg
    have rest : room (f^[n] (f s)) = max (room (f s) - n) 0 := ih (f s) (by omega)
    rw [Function.iterate_succ_apply]
    omega

theorem iterate_keeps_cfg {f : State → State} (keeps : ∀ s, (f s).cfg = s.cfg) (n : Nat) (s : State) :
    (f^[n] s).cfg = s.cfg :=
  Function.Iterate.rec (fun t => t.cfg = s.cfg) rfl (fun t kept => (keeps t).trans kept) n

/-- R131: as many calls as there is room, or more, end exactly at `MAX_DUTY`. -/
theorem iterate_increase_saturates {n : Nat} {s : State} (room : 0 ≤ roomAbove s) (enough : roomAbove s ≤ n) :
    (increase^[n] s).duty = s.cfg.maxDuty := by
  have used : roomAbove (increase^[n] s) = max (roomAbove s - n) 0 :=
    iterate_uses_up_room (room := roomAbove) (fun _ => roomAbove_increase) n s room
  unfold roomAbove at *
  rw [iterate_keeps_cfg increase_cfg] at used
  omega

/-- R132: as many calls as there is room, or more, end exactly at `MIN_DUTY`. -/
theorem iterate_decrease_saturates {n : Nat} {s : State} (room : 0 ≤ roomBelow s) (enough : roomBelow s ≤ n) :
    (decrease^[n] s).duty = s.cfg.minDuty := by
  have used : roomBelow (decrease^[n] s) = max (roomBelow s - n) 0 :=
    iterate_uses_up_room (room := roomBelow) (fun _ => roomBelow_decrease) n s room
  unfold roomBelow at *
  rw [iterate_keeps_cfg decrease_cfg] at used
  omega

/-- Settles O25: the request code and the meaning; one call on either side of the bound; and from `MIN_DUTY` the whole
range is the room, which the calls use up. -/
theorem thrIncSaturatesAtMaxDuty : Obligations.ThrIncSaturatesAtMaxDuty := by
  refine ⟨rfl, fun s => execThrInc_next.mpr rfl, fun s below => ?_, fun s bound => ?_, fun s ordered start => ?_⟩
  · exact execThrInc_next.mpr (increase_of_duty_lt below).symm
  · exact execThrInc_next.mpr (increase_of_maxDuty_le bound).symm
  · exact iterate_increase_saturates (by unfold roomAbove; omega) (by unfold roomAbove; omega)

/-- Settles O26: as O25, with the room below. -/
theorem thrDecSaturatesAtMinDuty : Obligations.ThrDecSaturatesAtMinDuty := by
  refine ⟨rfl, fun s => execThrDec_next.mpr rfl, fun s above => ?_, fun s bound => ?_, fun s ordered start => ?_⟩
  · exact execThrDec_next.mpr (decrease_of_lt_duty above).symm
  · exact execThrDec_next.mpr (decrease_of_duty_le bound).symm
  · exact iterate_decrease_saturates (by unfold roomBelow; omega) (by unfold roomBelow; omega)

/-! ## Request vectors (R133) -/

/-- R133: `0b11` is the only request vector without an operation. -/
theorem decode_thr_of_ne_reserved : ∀ r : ThrReq, r ≠ 0b11#2 → ∃ i ∈ throttleOps, decode (.thr r) = .op i := by
  decide

/-- No request of the neighbour stops, whatever the state: none is gated by the mode (R133). -/
theorem exec_throttleOps_answers {i : Instr} (mem : i ∈ throttleOps) (s : State) : ∃ t, exec i s = .next t := by
  simp only [throttleOps, List.mem_cons, List.not_mem_nil, or_false] at mem
  rcases mem with rfl | rfl | rfl
  · exact ⟨_, execThrInc_next.mpr rfl⟩
  · exact ⟨_, execThrDec_next.mpr rfl⟩
  · exact ⟨_, execThrNone_next.mpr rfl⟩

/-- A word that the decoder rejects is refused by the name of the rejection. -/
theorem step_of_rejected {s : State} {r : Reject} (accepted : parameterRefusal s = none)
    (rejected : decode (presentedWord s) = .rejected r) : step s = .refused (refusalOf r) := by
  simp [step, accepted, rejected]

/-- Settles O27: the request codes; the meaning of THR_NONE; the refusal of the reserved vector by the decoder's
rejection; and any other vector decodes to an operation that answers. -/
theorem thrNoneLeavesTheDutyAndReservedIsRefused : Obligations.ThrNoneLeavesTheDutyAndReservedIsRefused := by
  refine ⟨rfl, rfl, rfl, rfl, fun s => execThrNone_next.mpr rfl, fun s adm request => ?_,
    fun s r adm request defined => ?_⟩
  · refine step_of_rejected (r := .reservedThrottleRequest) ((parameterRefusal_of_request request).mpr adm) ?_
    rw [presentedWord_of_request request]
    rfl
  · obtain ⟨i, mem, selected⟩ := decode_thr_of_ne_reserved r defined
    obtain ⟨t, performed⟩ := exec_throttleOps_answers mem (takeStimulus s)
    rw [← presentedWord_of_request request] at selected
    exact ⟨t, step_next.mpr ⟨(parameterRefusal_of_request request).mpr adm, i, selected, performed⟩⟩

end Sys2Proof.Machine
end

section
/-! PROOFS of the family 60_exceptions.md: no clock edge fails, the request that an edge raises, and its service by the
handler at the next edge. -/

namespace Sys2Proof.Machine

/-! ## A clock edge answers (R150) -/

/-- R63 for the vector of a clock edge: some operation is selected. -/
theorem decode_of_edge {s : State} {p : Pins} (edge : nextStimulus s = .edge p) :
    ∃ i, decode (presentedWord s) = .op i := by
  cases rst : p.rst with
  | true => exact ⟨_, decode_of_reset_edge edge rst⟩
  | false =>
    cases mode : s.mode with
    | starting => exact ⟨_, decode_of_starting_edge edge mode rst⟩
    | running =>
      obtain ⟨i, -, selected⟩ := decode_of_running_edge edge mode rst
      exact ⟨i, selected⟩

/-- R154: a clock edge selects a forced step in Starting only. -/
theorem starting_of_forced_selected {s : State} {p : Pins} {i : Instr} (edge : nextStimulus s = .edge p)
    (selected : decode (presentedWord s) = .op i) (forced : i = .fstep ∨ i = .fstepLast) : s.mode = .starting := by
  have not_running : ∀ j ∈ runningOps, ¬ (j = .fstep ∨ j = .fstepLast) := by decide
  rcases selected_of_edge edge selected with ⟨-, rfl⟩ | ⟨-, mode, -⟩ | ⟨-, -, mem⟩
  · exact absurd forced (by decide)
  · exact mode
  · exact absurd forced (not_running i mem)

/-- A clock edge selects an operation of CORE, none of the neighbour's. -/
theorem coreOps_of_selected {s : State} {p : Pins} {i : Instr} (edge : nextStimulus s = .edge p)
    (selected : decode (presentedWord s) = .op i) : i ∈ coreOps := by
  have core_of_starting : ∀ j ∈ startingOps, j ∈ coreOps := by decide
  have core_of_running : ∀ j ∈ runningOps, j ∈ coreOps := by decide
  rcases selected_of_edge edge selected with ⟨-, rfl⟩ | ⟨-, -, mem⟩ | ⟨-, -, mem⟩
  · decide
  · exact core_of_starting i mem
  · exact core_of_running i mem

/-- The one condition under which an operation is refused is that of `force_step_advance` (R106). -/
theorem exec_answers {i : Instr} {s : State} (forced : i = .fstep ∨ i = .fstepLast → s.mode = .starting) :
    ∃ t, exec i s = .next t := by
  cases i with
  | reset => exact ⟨_, execReset_next.mpr rfl⟩
  | hold => exact ⟨_, execHold_next.mpr rfl⟩
  | wait => exact ⟨_, execWait_next.mpr rfl⟩
  | fstep => exact ⟨_, execFstep_next.mpr ⟨forced (.inl rfl), rfl⟩⟩
  | fstepLast => exact ⟨_, execFstepLast_next.mpr ⟨forced (.inr rfl), rfl⟩⟩
  | runIdle => exact ⟨_, execRunIdle_next.mpr rfl⟩
  | zcdet => exact ⟨_, execZcdet_next.mpr rfl⟩
  | zcadv => exact ⟨_, execZcadv_next.mpr rfl⟩
  | thrInc => exact ⟨_, execThrInc_next.mpr rfl⟩
  | thrDec => exact ⟨_, execThrDec_next.mpr rfl⟩
  | thrNone => exact ⟨_, execThrNone_next.mpr rfl⟩

/-- Settles O13: there is no fault; the edge selects an operation of CORE, and a forced step, the only one that could be
refused, is selected in Starting only. -/
theorem everyClockEdgeCompletes : Obligations.EveryClockEdgeCompletes := by
  refine ⟨nofun, fun s p edge adm => ?_⟩
  obtain ⟨i, selected⟩ := decode_of_edge edge
  obtain ⟨t, performed⟩ : ∃ t, exec i (takeStimulus s) = .next t := exec_answers fun forced => by
    rw [takeStimulus_mode, starting_of_forced_selected edge selected forced]
  exact ⟨i, t, coreOps_of_selected edge selected, selected, step_of_edge edge adm selected performed⟩

/-! ## A pending request is served (R144) -/

/-- Settles O34: a pending request selects the handler, whose effect in Running is read off. -/
theorem pendingRequestIsServedAtTheNextEdge : Obligations.PendingRequestIsServedAtTheNextEdge := by
  intro s p adm mode pending edge rst
  have performed : exec .zcadv (takeStimulus s) = .next (onZeroCrossingEvent (sampleEdge (takeStimulus s))) :=
    execZcadv_next.mpr rfl
  refine ⟨_, step_of_edge edge adm (decode_of_pending_edge edge mode pending rst) performed, rfl, ?_, ?_, ?_⟩
  · simp [mode]
  · simp [mode]
  · rw [exec_advances_step (by decide) performed, takeStimulus_step]

/-! ## Who writes the request (R143) -/

/-- The request after an operation, from the request before it: ZCDET raises it, ZCADV and RESET clear it. -/
def requestAfter : Instr → Bool → Bool
  | .zcdet, _ => true
  | .zcadv, _ | .reset, _ => false
  | _, before => before

/-- R143: no operation but ZCDET, ZCADV and RESET writes the request. -/
theorem exec_zcPend {i : Instr} {s t : State} (performed : exec i s = .next t) :
    t.zcPend = requestAfter i s.zcPend := by
  cases i with
  | reset => rw [execReset_next.mp performed]; rfl
  | hold => rw [execHold_next.mp performed]; rfl
  | wait => rw [execWait_next.mp performed]; rfl
  | fstep => rw [(execFstep_next.mp performed).2]; rfl
  | fstepLast => rw [(execFstepLast_next.mp performed).2]; rfl
  | runIdle => rw [execRunIdle_next.mp performed]; rfl
  | zcdet => rw [execZcdet_next.mp performed]; rfl
  | zcadv => rw [execZcadv_next.mp performed]; rfl
  | thrInc => rw [execThrInc_next.mp performed, increase_zcPend]; rfl
  | thrDec => rw [execThrDec_next.mp performed, decrease_zcPend]; rfl
  | thrNone => rw [execThrNone_next.mp performed]; rfl

theorem requestAfter_raised {i : Instr} : requestAfter i false = true ↔ i = .zcdet := by
  cases i <;> decide

theorem requestAfter_cleared {i : Instr} : requestAfter i true = false ↔ i = .zcadv ∨ i = .reset := by
  cases i <;> decide

/-! ## When the request can be raised and when served (R61, R62) -/

/-- The operation of a clock edge of Running without reset: the handler before the detector, the detector before
idling (R147). -/
def runningSelection (zcPend zcHit : Bool) : Instr :=
  if zcPend then .zcadv else if zcHit then .zcdet else .runIdle

/-- In Running the condition bits of the ramp timer are don't-cares of every row (R62). -/
theorem decode_selOf_runningSelection : ∀ cntZ atFloor tu zcPend zcHit : Bool,
    decode (.sel (selOf false true cntZ atFloor tu zcPend zcHit)) = .op (runningSelection zcPend zcHit) := by
  decide

/-- An operation of Running is selected by the request and the detector, at a clock edge. -/
theorem runningSelection_of_selected {s : State} {i : Instr} (mem : i ∈ runningOps)
    (selected : decode (presentedWord s) = .op i) :
    ∃ p, nextStimulus s = .edge p ∧ i = runningSelection s.zcPend (qualifies s p) := by
  cases stimulus : nextStimulus s with
  | edge p =>
    have mode : s.mode = .running := running_of_selected mem selected
    rcases selected_of_edge stimulus selected with ⟨-, rfl⟩ | ⟨-, -, starting⟩ | ⟨rst, -, -⟩
    · exact absurd mem (by decide)
    · exact absurd starting (runningOps_disjoint_startingOps i mem)
    · rw [presentedWord_of_edge stimulus, selVector_takeStimulus_of_edge stimulus, rst, mode] at selected
      exact ⟨p, rfl, Decoded.op.inj (selected.symm.trans (decode_selOf_runningSelection ..))⟩
  | request r =>
    have disjoint : ∀ j ∈ runningOps, j ∉ throttleOps := by decide
    rw [presentedWord_of_request stimulus] at selected
    exact absurd (decode_thr_mem selected) (disjoint i mem)

theorem runningSelection_eq_zcdet : ∀ zcPend zcHit : Bool,
    .zcdet = runningSelection zcPend zcHit → zcPend = false ∧ zcHit = true := by
  decide

theorem runningSelection_eq_zcadv : ∀ zcPend zcHit : Bool,
    .zcadv = runningSelection zcPend zcHit → zcPend = true := by
  decide

/-- R111: only an armed detector sees a hit. -/
theorem armed_of_qualifies {s : State} {p : Pins} (hit : qualifies s p = true) : s.armed = true := by
  obtain ⟨armed, -⟩ : s.armed = true ∧ _ := by simpa only [qualifies, Bool.and_eq_true] using hit
  exact armed

/-- R143: ZCDET happens only with nothing pending, by an armed detector. -/
theorem idle_and_armed_of_zcdet_selected {s : State} (selected : decode (presentedWord s) = .op .zcdet) :
    s.zcPend = false ∧ s.armed = true := by
  obtain ⟨p, -, selection⟩ := runningSelection_of_selected (by decide) selected
  obtain ⟨idle, hit⟩ := runningSelection_eq_zcdet _ _ selection
  exact ⟨idle, armed_of_qualifies hit⟩

/-- R143: ZCADV happens only with a request pending. -/
theorem pending_of_zcadv_selected {s : State} (selected : decode (presentedWord s) = .op .zcadv) :
    s.zcPend = true := by
  obtain ⟨p, -, selection⟩ := runningSelection_of_selected (by decide) selected
  exact runningSelection_eq_zcadv _ _ selection

/-- Settles O36: the step leaves the request that its operation leaves, so a change of it names the operation; and the
selection of ZCDET and of ZCADV tells the request before. -/
theorem requestIsRaisedByAnEdgeAndClearedByTheHandler :
    Obligations.RequestIsRaisedByAnEdgeAndClearedByTheHandler := by
  intro s t stepped
  obtain ⟨-, i, selected, performed⟩ := step_next.mp stepped
  have request : t.zcPend = requestAfter i s.zcPend := by rw [exec_zcPend performed, takeStimulus_zcPend]
  have disarms (zcdet : i = .zcdet) : t.armed = false := by
    subst zcdet
    rw [execZcdet_next.mp performed, requestZeroCrossing_armed]
  refine ⟨fun before after => ?_, fun before after => ?_, fun zcdet => ?_, fun zcadv => ?_⟩
  · rw [before, after] at request
    obtain rfl : i = .zcdet := requestAfter_raised.mp request.symm
    obtain ⟨-, armed⟩ := idle_and_armed_of_zcdet_selected selected
    exact ⟨selected, armed, disarms rfl⟩
  · rw [before, after] at request
    rw [selected, Decoded.op.injEq, Decoded.op.injEq]
    exact requestAfter_cleared.mp request.symm
  · obtain rfl : i = .zcdet := Decoded.op.inj (selected.symm.trans zcdet)
    obtain ⟨idle, -⟩ := idle_and_armed_of_zcdet_selected zcdet
    exact ⟨idle, request, disarms rfl⟩
  · obtain rfl : i = .zcadv := Decoded.op.inj (selected.symm.trans zcadv)
    exact ⟨pending_of_zcadv_selected zcadv, request⟩

end Sys2Proof.Machine
end

section
/-! PROOFS of the family 70_reset_and_hazards.md: what RESET does from any state, and the state after reset with its
outputs. -/

namespace Sys2Proof.Machine

/-! ## RESET is selected (R165) -/

/-- R61: `rst` is the one bit that the mask 0x40 tests. -/
theorem and_rstMask_eq_iff (v : SelWord) : v &&& 0x40#7 = 0x40#7 ↔ v.getLsbD 6 = true := by
  have mask : 0x40#7 = BitVec.twoPow 7 6 := rfl
  rw [mask, BitVec.and_twoPow]
  cases v.getLsbD 6 <;> decide

/-- R165: `rst` alone selects RESET, which no other operation shares (its priority). -/
theorem decode_eq_reset_iff (v : SelWord) : decode (.sel v) = .op .reset ↔ v.getLsbD 6 = true := by
  obtain ⟨reset, -⟩ := selectMapFollowsMaskAndMatch v
  exact reset.trans (and_rstMask_eq_iff v)

/-! ## What RESET writes (R165, R166) -/

/-- R165: `rst` held for several edges; what RESET writes depends only on the parameters, which it keeps. -/
@[simp] theorem resetCore_resetCore (s : State) : resetCore (resetCore s) = resetCore s := rfl

/-- R165: reset de-energizes the motor. -/
@[simp] theorem gates_resetCore (s : State) : gates (resetCore s) = 0b000000#6 :=
  gates_of_not_en (resetCore_en s)

/-- R7: three bits hold every STEP_RESET that is a step, so the entry monitored after reset is that of STEP_RESET. -/
theorem currentEntry_resetCore {s : State} (isStep : s.cfg.stepReset < 6) :
    currentEntry (resetCore s) = entryFor s.cfg s.cfg.stepReset := by
  have fits : s.cfg.stepReset % 2 ^ 3 = s.cfg.stepReset := Nat.mod_eq_of_lt (by omega)
  simp only [currentEntry, resetCore_step, resetCore_cfg, BitVec.toNat_ofNat, fits]

/-- R166: the output ports after RESET, for every STEP_RESET that is a step. -/
theorem outputs_resetCore {s : State} (isStep : s.cfg.stepReset < 6) :
    outputs (resetCore s) =
      ⟨0b000000#6, BitVec.ofNat 3 s.cfg.stepReset, 0#1, 0#1, 0#1,
        phaseCode (entryFor s.cfg s.cfg.stepReset).flt, polarityCode (entryFor s.cfg s.cfg.stepReset).pol⟩ := by
  simp only [outputs, gates_resetCore, sensePh, sensePol, currentEntry_resetCore isStep]
  rfl

/-- Settles O15: the row of RESET is the bit `rst`; what RESET writes, field by field, and what it leaves; and a second
RESET writes the same again. -/
theorem resetOperationGivesTheResetState : Obligations.ResetOperationGivesTheResetState := by
  refine ⟨decode_eq_reset_iff, fun s => ⟨resetCore s, execReset_next.mpr rfl, ?_⟩⟩
  have again : exec .reset (resetCore s) = .next (resetCore s) := execReset_next.mpr (resetCore_resetCore s).symm
  exact ⟨resetCore_mode s, resetCore_step s, resetCore_en s, resetCore_dly s, resetCore_cnt s, resetCore_armed s,
    resetCore_zcPend s, resetCore_cmpQ s, resetCore_events s, gates_resetCore s,
    ⟨resetCore_cfg s, resetCore_pins s, resetCore_stimulus s, resetCore_draws s⟩, again⟩

/-! ## The state after reset (R166) -/

/-- R166: the state a run starts in is one that RESET leaves as it is. -/
theorem resetCore_reset : resetCore State.reset = State.reset := rfl

/-- Settles O16: RESET leaves the reset state as it is, so its fields and outputs are those that RESET gives; the duty,
which RESET does not write, is the neighbour's own reset value. -/
theorem resetStateHoldsTheResetValues : Obligations.ResetStateHoldsTheResetValues := by
  have stepReset : State.reset.cfg.stepReset = 5 := rfl
  have duty : State.reset.duty = State.reset.cfg.dutyReset := rfl
  have ports := outputs_resetCore (s := State.reset) (by rw [stepReset]; decide)
  have step := resetCore_step State.reset
  rw [stepReset] at ports step
  unfold Obligations.ResetStateHoldsTheResetValues
  rw [← resetCore_reset]
  exact ⟨resetCore_mode _, stepReset, step, resetCore_en _, resetCore_dly _, resetCore_cnt _, resetCore_armed _,
    resetCore_zcPend _, resetCore_cmpQ _, duty, ports⟩

end Sys2Proof.Machine
end

section
/-! PROOFS of the family other, first part: the invariants I1 to I6 (R29) and the bounds of the duty (R130), with what
CORE and the neighbour leave of each other's fields. -/

namespace Sys2Proof.Machine

/-! ## CORE and the neighbour (R130, R134) -/

/-- R133: no request is an operation of CORE. -/
theorem throttleOps_disjoint_coreOps : ∀ i ∈ throttleOps, i ∉ coreOps := by decide

/-- R134: an operation of CORE neither reads nor writes the neighbour's fields, so other values there come out as they
went in. -/
theorem exec_coreOps_of_other_duty {i : Instr} {s t : State} (mem : i ∈ coreOps) (performed : exec i s = .next t)
    (d : Int) (e : List ThrottleEvent) :
    exec i { s with duty := d, thrEvents := e } = .next { t with duty := d, thrEvents := e } := by
  simp only [coreOps, List.mem_cons, List.not_mem_nil, or_false] at mem
  rcases mem with rfl | rfl | rfl | rfl | rfl | rfl | rfl | rfl
  · cases execReset_next.mp performed
    exact execReset_next.mpr rfl
  · cases execHold_next.mp performed
    exact execHold_next.mpr rfl
  · cases execWait_next.mp performed
    exact execWait_next.mpr rfl
  · obtain ⟨mode, rfl⟩ := execFstep_next.mp performed
    exact execFstep_next.mpr ⟨mode, rfl⟩
  · obtain ⟨mode, rfl⟩ := execFstepLast_next.mp performed
    exact execFstepLast_next.mpr ⟨mode, rfl⟩
  · cases execRunIdle_next.mp performed
    exact execRunIdle_next.mpr rfl
  · cases execZcdet_next.mp performed
    exact execZcdet_next.mpr rfl
  · cases execZcadv_next.mp performed
    exact execZcadv_next.mpr rfl

/-- R134: an operation of CORE leaves the neighbour's fields. -/
theorem exec_coreOps_keeps_neighbour {i : Instr} {s t : State} (mem : i ∈ coreOps) (performed : exec i s = .next t) :
    t.duty = s.duty ∧ t.thrEvents = s.thrEvents := by
  have same := exec_coreOps_of_other_duty mem performed s.duty s.thrEvents
  have kept : t = { t with duty := s.duty, thrEvents := s.thrEvents } :=
    Host.Outcome.next.inj (performed.symm.trans same)
  exact ⟨(congrArg State.duty kept :), (congrArg State.thrEvents kept :)⟩

theorem increase_frame (s : State) :
    increase s = { s with duty := (increase s).duty, thrEvents := (increase s).thrEvents } := by
  rcases increase_cases s with ⟨-, raised⟩ | ⟨-, kept⟩
  · rw [raised]
  · rw [kept]

theorem decrease_frame (s : State) :
    decrease s = { s with duty := (decrease s).duty, thrEvents := (decrease s).thrEvents } := by
  rcases decrease_cases s with ⟨-, lowered⟩ | ⟨-, kept⟩
  · rw [lowered]
  · rw [kept]

/-- R130: a request writes the neighbour's fields alone. -/
theorem exec_throttleOps_frame {i : Instr} {s t : State} (mem : i ∈ throttleOps) (performed : exec i s = .next t) :
    t = { s with duty := t.duty, thrEvents := t.thrEvents } := by
  simp only [throttleOps, List.mem_cons, List.not_mem_nil, or_false] at mem
  rcases mem with rfl | rfl | rfl
  · rw [execThrInc_next.mp performed]; exact increase_frame s
  · rw [execThrDec_next.mp performed]; exact decrease_frame s
  · rw [execThrNone_next.mp performed]; rfl

/-- Settles O45: the frame of each agent's operations. -/
theorem coreAndNeighbourShareNoState : Obligations.CoreAndNeighbourShareNoState := fun _ _ _ performed =>
  ⟨fun core => exec_coreOps_keeps_neighbour core performed, fun request => exec_throttleOps_frame request performed⟩

/-! ## The two agents commute (R134) -/

/-- R131: of the state, `increase()` reads the duty and its upper bound alone. -/
theorem increase_congr {s t : State} (duty : t.duty = s.duty) (cfg : t.cfg = s.cfg) :
    increase t = { t with duty := (increase s).duty, thrEvents := (increase s).thrEvents } := by
  rcases increase_cases s with ⟨below, raised⟩ | ⟨bound, kept⟩
  · rw [raised, increase_of_duty_lt (by rwa [duty, cfg]), duty]
  · rw [kept, increase_of_maxDuty_le (by rwa [duty, cfg]), ← duty]

/-- R132: of the state, `decrease()` reads the duty and its lower bound alone. -/
theorem decrease_congr {s t : State} (duty : t.duty = s.duty) (cfg : t.cfg = s.cfg) :
    decrease t = { t with duty := (decrease s).duty, thrEvents := (decrease s).thrEvents } := by
  rcases decrease_cases s with ⟨above, lowered⟩ | ⟨bound, kept⟩
  · rw [lowered, decrease_of_lt_duty (by rwa [duty, cfg]), duty]
  · rw [kept, decrease_of_duty_le (by rwa [duty, cfg]), ← duty]

/-- A request does to any state with the same duty and the same bounds what it does to this one. -/
theorem exec_request_congr {j : Instr} {s t u : State} (request : j ∈ [Instr.thrInc, .thrDec])
    (performed : exec j s = .next u) (duty : t.duty = s.duty) (cfg : t.cfg = s.cfg) :
    exec j t = .next { t with duty := u.duty, thrEvents := u.thrEvents } := by
  simp only [List.mem_cons, List.not_mem_nil, or_false] at request
  rcases request with rfl | rfl
  · rw [execThrInc_next.mp performed]
    exact execThrInc_next.mpr (increase_congr duty cfg).symm
  · rw [execThrDec_next.mp performed]
    exact execThrDec_next.mpr (decrease_congr duty cfg).symm

/-- Settles O46: both orders end in the state that CORE's operation leaves, with the neighbour's fields as the request
leaves them. -/
theorem throttleCommutesWithEveryCoreOperation : Obligations.ThrottleCommutesWithEveryCoreOperation := by
  refine ⟨fun i j s t u core request coreDone requestDone => ?_, fun i s t core performed => ?_⟩
  · obtain ⟨duty, -⟩ := exec_coreOps_keeps_neighbour core coreDone
    have throttle : ∀ k ∈ [Instr.thrInc, .thrDec], k ∈ throttleOps := by decide
    refine ⟨_, exec_request_congr request requestDone duty (exec_keeps_cfg coreDone), ?_⟩
    rw [exec_throttleOps_frame (throttle j request) requestDone]
    exact exec_coreOps_of_other_duty core coreDone u.duty u.thrEvents
  · obtain ⟨duty, -⟩ := exec_coreOps_keeps_neighbour core performed
    exact duty

/-! ## What one step performs -/

/-- A step performs one of the neighbour's requests, or, with an admissible configuration, the operation of CORE that
its clock edge selects. -/
theorem step_performs {s t : State} (stepped : step s = .next t) :
    (∃ i ∈ throttleOps, exec i (takeStimulus s) = .next t) ∨
    ∃ p i, nextStimulus s = .edge p ∧ Admissible s.cfg ∧ decode (presentedWord s) = .op i ∧
      exec i (takeStimulus s) = .next t := by
  obtain ⟨accepted, i, selected, performed⟩ := step_next.mp stepped
  cases stimulus : nextStimulus s with
  | edge p => exact .inr ⟨p, i, rfl, (parameterRefusal_of_edge stimulus).mp accepted, selected, performed⟩
  | request r =>
    rw [presentedWord_of_request stimulus] at selected
    exact .inl ⟨i, decode_thr_mem selected, performed⟩

/-! ## The bounds of the duty (R130) -/

theorem dutyInBounds_increase {s : State} (inv : DutyInBounds s) : DutyInBounds (increase s) := by
  obtain ⟨low, high⟩ := inv
  unfold DutyInBounds
  rw [increase_cfg]
  rcases increase_cases s with ⟨below, raised⟩ | ⟨-, kept⟩
  · rw [raised]; dsimp only; omega
  · rw [kept]; exact ⟨low, high⟩

theorem dutyInBounds_decrease {s : State} (inv : DutyInBounds s) : DutyInBounds (decrease s) := by
  obtain ⟨low, high⟩ := inv
  unfold DutyInBounds
  rw [decrease_cfg]
  rcases decrease_cases s with ⟨above, lowered⟩ | ⟨-, kept⟩
  · rw [lowered]; dsimp only; omega
  · rw [kept]; exact ⟨low, high⟩

theorem exec_throttleOps_keeps_dutyInBounds {i : Instr} {s t : State} (mem : i ∈ throttleOps)
    (performed : exec i s = .next t) (inv : DutyInBounds s) : DutyInBounds t := by
  simp only [throttleOps, List.mem_cons, List.not_mem_nil, or_false] at mem
  rcases mem with rfl | rfl | rfl
  · rw [execThrInc_next.mp performed]; exact dutyInBounds_increase inv
  · rw [execThrDec_next.mp performed]; exact dutyInBounds_decrease inv
  · rw [execThrNone_next.mp performed]; exact inv

/-- Settles O50: a request stops at the bounds, and an operation of CORE writes neither the duty nor its bounds. -/
theorem stepKeepsTheDutyBounds : Obligations.StepKeepsTheDutyBounds := by
  intro s t inv stepped
  have taken : DutyInBounds (takeStimulus s) := by simpa [DutyInBounds] using inv
  rcases step_performs stepped with ⟨i, request, performed⟩ | ⟨p, i, edge, -, selected, performed⟩
  · exact exec_throttleOps_keeps_dutyInBounds request performed taken
  · obtain ⟨duty, -⟩ := exec_coreOps_keeps_neighbour (coreOps_of_selected edge selected) performed
    unfold DutyInBounds
    rw [exec_keeps_cfg performed, duty]
    exact taken

/-! ## I1 to I6 through the shared operations (R29) -/

/-- No invariant speaks of the samples, the pins, the stimuli, the event lists or the duty. -/
theorem coreInv_congr {s t : State} (inv : CoreInv s)
    (same : t = { s with cmpQ := t.cmpQ, duty := t.duty, pins := t.pins, stimulus := t.stimulus, draws := t.draws,
                         events := t.events, thrEvents := t.thrEvents }) : CoreInv t := by
  rw [same]
  exact inv

theorem coreInv_takeStimulus {s : State} (inv : CoreInv s) : CoreInv (takeStimulus s) := by
  rcases takeStimulus_cases s with ⟨-, -, taken⟩ | ⟨p, rest, -, -, taken⟩ | ⟨r, rest, -, -, taken⟩ <;>
    rw [taken] <;> exact coreInv_congr inv rfl

theorem coreInv_sampleEdge {s : State} (inv : CoreInv s) : CoreInv (sampleEdge s) := coreInv_congr inv rfl

/-- R166: three bits hold every STEP_RESET that is a step. -/
theorem resetCore_step_toNat {s : State} (isStep : s.cfg.stepReset < 6) :
    (resetCore s).step.toNat = s.cfg.stepReset := by
  rw [resetCore_step, BitVec.toNat_ofNat]
  omega

/-- R166: the reset values meet the invariants where STEP_RESET is a step. -/
theorem coreInv_resetCore {s : State} (isStep : s.cfg.stepReset < 6) : CoreInv (resetCore s) := by
  have fits : (resetCore s).step.toNat = s.cfg.stepReset := resetCore_step_toNat isStep
  refine ⟨?_, fun _ => ⟨rfl, rfl⟩, nofun, nofun, ⟨Nat.le_refl _, Nat.le_refl _⟩, fun _ => ⟨rfl, fits, rfl⟩⟩
  unfold InvStepBelowSix
  omega

/-- R93: less time to wait. -/
theorem coreInv_countDown {s : State} (inv : CoreInv s) : CoreInv (countDown s) := by
  obtain ⟨below, disarmed, xor, rampOver, ⟨cnt, dly⟩, deEnergized⟩ := inv
  refine ⟨below, disarmed, xor, fun mode => ?_, ⟨Nat.le_trans (Nat.sub_le ..) cnt, dly⟩, deEnergized⟩
  obtain ⟨en, wait, floor⟩ := rampOver mode
  exact ⟨en, Nat.sub_eq_zero_of_le (wait ▸ Nat.zero_le _), floor⟩

theorem stepBelowSix_applyEntry (s : State) : InvStepBelowSix (applyEntry s) := by
  unfold InvStepBelowSix
  rw [applyEntry_step, advancedStep_toNat]
  exact inc6_lt _

/-- R81 in Starting: `armed` is left, so the detector stays disarmed. -/
theorem coreInv_applyEntry {s : State} (inv : CoreInv s) (mode : s.mode = .starting) : CoreInv (applyEntry s) := by
  obtain ⟨-, disarmed, -, -, delays, -⟩ := inv
  have running_absurd {P : Prop} (running : (applyEntry s).mode = .running) : P := by
    rw [applyEntry_mode, mode] at running
    cases running
  refine ⟨stepBelowSix_applyEntry s, fun _ => ?_, running_absurd, running_absurd, delays, nofun⟩
  simpa [mode] using disarmed mode

/-- R94: the shorter delay is both the delay and the wait; it stays in Starting. -/
theorem coreInv_loadNextWait {s : State} (inv : CoreInv s) (mode : s.mode = .starting) (en : s.en = true) :
    CoreInv (loadNextWait s) := by
  obtain ⟨below, disarmed, -, -, ⟨-, dly⟩, -⟩ := inv
  have running_absurd {P : Prop} (running : (loadNextWait s).mode = .running) : P := by
    rw [loadNextWait_mode, mode] at running
    cases running
  have shorter : decrementedDelay s ≤ s.cfg.delayInit := by
    rw [decrementedDelay, tsub_eq]
    omega
  refine ⟨below, disarmed, running_absurd, running_absurd, ⟨Nat.le_refl _, shorter⟩, fun off => ?_⟩
  rw [loadNextWait_en, en] at off
  cases off

/-- R108: at the boundary the wait is over and the delay at the floor; the detector is armed with nothing pending. -/
theorem coreInv_transitionToRunning {s : State} (inv : CoreInv s) (mode : s.mode = .starting) (en : s.en = true)
    (wait : s.cnt = 0) (floor : s.dly ≤ s.cfg.delayFloor) : CoreInv (transitionToRunning s) := by
  obtain ⟨below, disarmed, -, -, delays, -⟩ := inv
  obtain ⟨-, idle⟩ := disarmed mode
  refine ⟨below, nofun, fun _ => ?_, fun _ => ⟨en, wait, floor⟩, delays, fun off => ?_⟩
  · rw [transitionToRunning_armed, transitionToRunning_zcPend, idle]; rfl
  · rw [transitionToRunning_en, en] at off
    cases off

/-- R113 in Running: pending instead of armed. -/
theorem coreInv_requestZeroCrossing {s : State} (inv : CoreInv s) (mode : s.mode = .running) :
    CoreInv (requestZeroCrossing s) := by
  obtain ⟨below, -, -, rampOver, delays, deEnergized⟩ := inv
  refine ⟨below, fun starting => ?_, fun _ => rfl, rampOver, delays, deEnergized⟩
  rw [requestZeroCrossing_mode, mode] at starting
  cases starting

/-- R114 in Running: armed instead of pending. -/
theorem coreInv_onZeroCrossingEvent {s : State} (inv : CoreInv s) (mode : s.mode = .running) :
    CoreInv (onZeroCrossingEvent s) := by
  obtain ⟨-, -, -, rampOver, delays, -⟩ := inv
  obtain ⟨-, wait, floor⟩ := rampOver mode
  refine ⟨stepBelowSix_applyEntry s, fun starting => ?_, fun _ => ?_, fun _ => ⟨rfl, wait, floor⟩, delays, nofun⟩
  · rw [onZeroCrossingEvent_mode, mode] at starting
    cases starting
  · rw [onZeroCrossingEvent_armed, onZeroCrossingEvent_zcPend, if_pos mode]; rfl

/-! ## I1 to I6 through one step (R29) -/

/-- R91: FSTEP_LAST is selected only where the wait has run out at or below the floor. -/
theorem startingSelection_eq_fstepLast : ∀ cntZ atFloor tu : Bool,
    startingSelection cntZ atFloor tu = .fstepLast → cntZ = true ∧ atFloor = true := by
  decide

theorem boundary_of_fstepLast_selected {s : State} {p : Pins} (edge : nextStimulus s = .edge p)
    (selected : decode (presentedWord s) = .op .fstepLast) : s.cnt = 0 ∧ s.dly ≤ s.cfg.delayFloor := by
  rcases selected_of_edge edge selected with ⟨-, reset⟩ | ⟨rst, mode, -⟩ | ⟨-, -, mem⟩
  · cases reset
  · rw [decode_of_starting_edge edge mode rst] at selected
    simpa using startingSelection_eq_fstepLast _ _ _ (Decoded.op.inj selected)
  · exact absurd mem (by decide)

/-- The operations of Starting keep I1 to I6, FSTEP_LAST at the boundary of the ramp. -/
theorem coreInv_exec_startingOps {i : Instr} {s t : State} (mem : i ∈ startingOps) (inv : CoreInv s)
    (boundary : i = .fstepLast → s.cnt = 0 ∧ s.dly ≤ s.cfg.delayFloor) (performed : exec i s = .next t) :
    CoreInv t := by
  have sampled : CoreInv (sampleEdge s) := coreInv_sampleEdge inv
  simp only [startingOps, List.mem_cons, List.not_mem_nil, or_false] at mem
  rcases mem with rfl | rfl | rfl | rfl
  · rw [execHold_next.mp performed]
    exact sampled
  · rw [execWait_next.mp performed]
    exact coreInv_countDown sampled
  · obtain ⟨mode, rfl⟩ := execFstep_next.mp performed
    exact coreInv_loadNextWait (coreInv_applyEntry sampled mode) mode rfl
  · obtain ⟨mode, rfl⟩ := execFstepLast_next.mp performed
    obtain ⟨wait, floor⟩ := boundary rfl
    exact coreInv_transitionToRunning (coreInv_applyEntry sampled mode) mode rfl wait floor

/-- The operations of Running keep I1 to I6 in Running. -/
theorem coreInv_exec_runningOps {i : Instr} {s t : State} (mem : i ∈ runningOps) (inv : CoreInv s)
    (mode : s.mode = .running) (performed : exec i s = .next t) : CoreInv t := by
  have sampled : CoreInv (sampleEdge s) := coreInv_sampleEdge inv
  simp only [runningOps, List.mem_cons, List.not_mem_nil, or_false] at mem
  rcases mem with rfl | rfl | rfl
  · rw [execRunIdle_next.mp performed]
    exact sampled
  · rw [execZcdet_next.mp performed]
    exact coreInv_requestZeroCrossing sampled mode
  · rw [execZcadv_next.mp performed]
    exact coreInv_onZeroCrossingEvent sampled mode

/-- Settles O48: a request writes nothing that an invariant speaks of; a clock edge resets, or performs an operation of
its mode, and where that is FSTEP_LAST the ramp has reached its boundary. -/
theorem stepKeepsTheReachableInvariants : Obligations.StepKeepsTheReachableInvariants := by
  intro s t inv stepped
  have taken : CoreInv (takeStimulus s) := coreInv_takeStimulus inv
  rcases step_performs stepped with ⟨i, request, performed⟩ | ⟨p, i, edge, adm, selected, performed⟩
  · rw [exec_throttleOps_frame request performed]
    exact coreInv_congr taken rfl
  · rcases selected_of_edge edge selected with ⟨-, rfl⟩ | ⟨-, -, mem⟩ | ⟨-, mode, mem⟩
    · obtain ⟨-, -, -, -, -, -, isStep⟩ := adm
      rw [execReset_next.mp performed]
      exact coreInv_resetCore (by rwa [takeStimulus_cfg])
    · refine coreInv_exec_startingOps mem taken (fun last => ?_) performed
      rw [takeStimulus_cnt, takeStimulus_dly, takeStimulus_cfg]
      exact boundary_of_fstepLast_selected edge (last ▸ selected)
    · exact coreInv_exec_runningOps mem taken (by rw [takeStimulus_mode, mode]) performed

/-- Settles O49: the edge selects RESET, whose values meet the invariants. -/
theorem resetEdgeEstablishesTheInvariants : Obligations.ResetEdgeEstablishesTheInvariants := by
  intro s p edge rst adm
  have stepped : step s = .next (resetCore (takeStimulus s)) :=
    step_of_edge edge adm (decode_of_reset_edge edge rst) (execReset_next.mpr rfl)
  obtain ⟨-, -, -, -, -, -, isStep⟩ := adm
  exact ⟨_, stepped, coreInv_resetCore (by rwa [takeStimulus_cfg])⟩

/-- Settles O47: the reset state is one that RESET leaves as it is; its duty is `MIN_DUTY`. -/
theorem resetStateMeetsTheInvariants : Obligations.ResetStateMeetsTheInvariants := by
  refine ⟨?_, by decide⟩
  rw [← resetCore_reset]
  exact coreInv_resetCore (by decide)

/-- Settles O52: I5 bounds both registers by the initial delay, which R7 has fit. -/
theorem delaysFitTheirWidth : Obligations.DelaysFitTheirWidth := by
  rintro s ⟨-, -, -, -, ⟨cnt, dly⟩, -⟩ ⟨-, -, fits, -⟩
  exact ⟨Nat.lt_of_le_of_lt dly fits, Nat.lt_of_le_of_lt (Nat.le_trans cnt dly) fits⟩

/-! ## Starting delivers no event (R142) -/

/-- R111: a disarmed detector sees no hit. -/
theorem qualifies_of_not_armed {s : State} {p : Pins} (disarmed : s.armed = false) : qualifies s p = false := by
  simp [qualifies, disarmed]

/-- Settles O35: I2 before the step disarms the detector, and no operation of Running is selected in Starting; I2 after
the step, or, where the step leaves Starting, that no ZCDET has raised the request. -/
theorem startingDeliversNoEvent : Obligations.StartingDeliversNoEvent := by
  intro s p inv mode edge
  have ⟨_, startingDisarmed, _⟩ := inv
  obtain ⟨disarmed, idle⟩ := startingDisarmed mode
  have not_selected {i : Instr} (mem : i ∈ runningOps) : decode (presentedWord s) ≠ .op i := fun selected => by
    cases mode.symm.trans (running_of_selected mem selected)
  refine ⟨qualifies_of_not_armed disarmed, not_selected (by decide), not_selected (by decide), fun t stepped => ?_⟩
  obtain ⟨raised, -⟩ := requestIsRaisedByAnEdgeAndClearedByTheHandler s t stepped
  obtain ⟨-, disarmedAfter, -⟩ := stepKeepsTheReachableInvariants s t inv stepped
  constructor
  · by_contra pending
    obtain ⟨zcdet, -⟩ := raised idle (by simpa using pending)
    exact not_selected (by decide) zcdet
  · intro armed
    cases modeAfter : t.mode with
    | running => rfl
    | starting =>
      obtain ⟨disarmed, -⟩ := disarmedAfter modeAfter
      cases armed.symm.trans disarmed

end Sys2Proof.Machine
end

section
/-! PROOFS of the family other, second part: words and their decoding, the selection of one clock edge, and what WAIT,
FSTEP_LAST and a refused call do. -/

namespace Sys2Proof.Machine

/-! ## Words (R62, R63, R133) -/

/-- R61: a select vector is the vector of its own seven bits. -/
theorem selOf_bits (v : SelWord) :
    selOf (v.getLsbD 6) (v.getLsbD 5) (v.getLsbD 4) (v.getLsbD 3) (v.getLsbD 2) (v.getLsbD 1) (v.getLsbD 0) = v := by
  refine BitVec.eq_of_getLsbD_eq fun k bound => ?_
  rw [selOf_getLsbD]
  match k, bound with
  | 0, _ | 1, _ | 2, _ | 3, _ | 4, _ | 5, _ | 6, _ => rfl

/-- R63: whatever the seven conditions are, an operation of CORE is selected. -/
theorem decode_selOf_mem_coreOps : ∀ rst mode cntZ atFloor tu zcPend zcHit : Bool,
    ∃ i ∈ coreOps, decode (.sel (selOf rst mode cntZ atFloor tu zcPend zcHit)) = .op i := by
  decide

/-- Settles O2: a vector is that of its bits, which select an operation; the counts are computed. -/
theorem selectMapIsTotalAndUnambiguous : Obligations.SelectMapIsTotalAndUnambiguous := by
  refine ⟨fun v => ?_, by decide⟩
  obtain ⟨i, mem, selected⟩ := decode_selOf_mem_coreOps (v.getLsbD 6) (v.getLsbD 5) (v.getLsbD 4) (v.getLsbD 3)
    (v.getLsbD 2) (v.getLsbD 1) (v.getLsbD 0)
  rw [selOf_bits] at selected
  exact ⟨i, selected, mem⟩

/-- A request vector that is a row's code decodes to that row's operation (R133). -/
theorem decode_thr_of_row : ∀ r ∈ thrRows, decode (.thr r.value) = .op r.op := by decide

/-- An encoded word that fits the row of its operation decodes to it. -/
theorem decode_encode_of_fits {i : Instr} (fits : Laws.EncodedWordFitsItsRow.Statement i) :
    decode (encode i) = .op i := by
  unfold Laws.EncodedWordFitsItsRow.Statement at fits
  split at fits
  next v encoded =>
    rw [encoded]
    exact decode_sel_eq_op.mpr fits
  next v encoded =>
    obtain ⟨r, mem, rfl, rfl⟩ := fits
    rw [encoded]
    exact decode_thr_of_row r mem

theorem encode_fits (i : Instr) : Laws.EncodedWordFitsItsRow.Statement i := by
  cases i with
  | reset => exact Laws.EncodedWordFitsItsRow.reset
  | hold => exact Laws.EncodedWordFitsItsRow.hold
  | wait => exact Laws.EncodedWordFitsItsRow.wait
  | fstep => exact Laws.EncodedWordFitsItsRow.fstep
  | fstepLast => exact Laws.EncodedWordFitsItsRow.fstepLast
  | runIdle => exact Laws.EncodedWordFitsItsRow.runIdle
  | zcdet => exact Laws.EncodedWordFitsItsRow.zcdet
  | zcadv => exact Laws.EncodedWordFitsItsRow.zcadv
  | thrInc => exact Laws.EncodedWordFitsItsRow.thrInc
  | thrDec => exact Laws.EncodedWordFitsItsRow.thrDec
  | thrNone => exact Laws.EncodedWordFitsItsRow.thrNone

/-- R64, R133: the encoder never writes the reserved request. -/
theorem encode_wellFormed (i : Instr) : (encode i).wellFormed = true := by
  cases i <;> rfl

/-- Settles O3: every encoded word fits its row and is no reserved encoding. -/
theorem encodedOperationDecodesToItself : Obligations.EncodedOperationDecodesToItself := fun i _ =>
  ⟨encode_wellFormed i, decode_encode_of_fits (encode_fits i)⟩

/-- Settles O4: each word is decoded by the map. -/
theorem sampleWordsDecodeAsWritten : Obligations.SampleWordsDecodeAsWritten :=
  ⟨rfl, rfl, rfl, rfl, rfl, rfl, rfl, rfl, rfl, rfl, rfl, rfl⟩

/-! ## Edges on the monitored comparator (R11, R33) -/

/-- R11: a level that stays what it was is an edge of neither polarity. -/
theorem edge_same (pol : Polarity) (level : Bool) : edge pol level level = false := by
  cases pol <;> cases level <;> rfl

/-- R11: an edge of the expected polarity leaves the level 1 when falling, 0 when rising. -/
theorem edge_from_level_before (pol : Polarity) : edge pol (pol == .falling) (!(pol == .falling)) = true := by
  cases pol <;> rfl

/-- R33: comparator inputs that show the bits of a sample vector show that vector. -/
theorem cmpOf_bits (rst tu : Bool) (v : BitVec 3) :
    cmpOf ⟨rst, tu, v.getLsbD 0, v.getLsbD 1, v.getLsbD 2⟩ = v := by
  refine BitVec.eq_of_getLsbD_eq fun k bound => ?_
  rw [cmpOf_getLsbD]
  match k, bound with
  | 0, _ | 1, _ | 2, _ => rfl

/-- R67 (d): the one bit that a phase's code selects. -/
theorem sampleOf_phaseBit (p : Phase) : sampleOf (1#3 <<< (phaseCode p).toNat) p = true := by
  cases p <;> rfl

theorem sampleOf_set (v : BitVec 3) (p : Phase) : sampleOf (v ||| (1#3 <<< (phaseCode p).toNat)) p = true := by
  have bit := sampleOf_phaseBit p
  unfold sampleOf at *
  rw [BitVec.getLsbD_or, bit, Bool.or_true]

theorem sampleOf_flip (v : BitVec 3) (p : Phase) :
    sampleOf (v ^^^ (1#3 <<< (phaseCode p).toNat)) p = !sampleOf v p := by
  have bit := sampleOf_phaseBit p
  unfold sampleOf at *
  rw [BitVec.getLsbD_xor, bit, Bool.xor_true]

theorem sampleOf_clear (v : BitVec 3) (p : Phase) : sampleOf (v &&& ~~~(1#3 <<< (phaseCode p).toNat)) p = false := by
  have bit := sampleOf_phaseBit p
  unfold sampleOf at *
  simp [BitVec.getLsbD_and, bit]

/-! ## The model's own placing of a word (log 7) -/

/-- The placing writes neither the step nor the table, so the entry monitored stays. -/
@[simp] theorem currentEntry_placeSel (s : State) (v : SelWord) : currentEntry (placeSel s v) = currentEntry s := rfl

/-- Where a hit is asked for, the stored sample is the level before the edge. -/
theorem sampleOf_placeSel {s : State} {v : SelWord} (hit : v.getLsbD 0 = true) :
    sampleOf (placeSel s v).cmpQ (currentEntry s).flt = ((currentEntry s).pol == .falling) := by
  simp only [placeSel, hit, if_true]
  cases (currentEntry s).pol with
  | falling => exact sampleOf_set ..
  | rising => exact sampleOf_clear ..

/-- What is placed as the next stimulus: the reset and the strobe of the vector, and comparator levels that differ from
the stored samples, in the monitored phase, exactly where a hit is asked for. -/
theorem nextStimulus_placeSel (s : State) (v : SelWord) :
    ∃ p, nextStimulus (placeSel s v) = .edge p ∧ p.rst = v.getLsbD 6 ∧ p.tu = v.getLsbD 2 ∧
      cmpOf p = if v.getLsbD 0 then (placeSel s v).cmpQ ^^^ (1#3 <<< (phaseCode (currentEntry s).flt).toNat)
        else (placeSel s v).cmpQ :=
  ⟨_, rfl, rfl, rfl, cmpOf_bits ..⟩

/-- R111: the placed edge is a hit exactly where one is asked for. -/
theorem qualifies_placeSel {s : State} {v : SelWord} {p : Pins}
    (levels : cmpOf p = if v.getLsbD 0 then
      (placeSel s v).cmpQ ^^^ (1#3 <<< (phaseCode (currentEntry s).flt).toNat) else (placeSel s v).cmpQ) :
    qualifies (placeSel s v) p = v.getLsbD 0 := by
  rw [qualifies, currentEntry_placeSel, levels]
  cases hit : v.getLsbD 0 with
  | true =>
    have armed : (placeSel s v).armed = true := by simp [placeSel, hit]
    rw [if_pos rfl, sampleOf_flip, sampleOf_placeSel hit, edge_from_level_before, armed]
    rfl
  | false =>
    rw [if_neg Bool.false_ne_true, edge_same, Bool.and_false]

theorem placeSel_mode (s : State) (v : SelWord) :
    (decide ((placeSel s v).mode = .running)) = v.getLsbD 5 := by
  rw [Bool.eq_iff_iff, decide_eq_true_iff]
  show (if v.getLsbD 5 then MotorMode.running else .starting) = .running ↔ _
  cases v.getLsbD 5 <;> simp

theorem placeSel_cntZ (s : State) (v : SelWord) : (decide ((placeSel s v).cnt = 0)) = v.getLsbD 4 := by
  rw [Bool.eq_iff_iff, decide_eq_true_iff]
  show (if v.getLsbD 4 then 0 else if s.cnt = 0 then 1 else s.cnt) = 0 ↔ _
  cases v.getLsbD 4 with
  | true => simp
  | false => by_cases wait : s.cnt = 0 <;> simp [wait]

theorem placeSel_atFloor (s : State) (v : SelWord) :
    (decide ((placeSel s v).dly ≤ (placeSel s v).cfg.delayFloor)) = v.getLsbD 3 := by
  rw [Bool.eq_iff_iff, decide_eq_true_iff]
  show (if v.getLsbD 3 then (if s.dly ≤ s.cfg.delayFloor then s.dly else s.cfg.delayFloor)
    else (if s.dly ≤ s.cfg.delayFloor then s.cfg.delayFloor + 1 else s.dly)) ≤ s.cfg.delayFloor ↔ _
  by_cases floor : s.dly ≤ s.cfg.delayFloor <;> cases v.getLsbD 3 <;> simp [floor]

/-- Settles O5: each condition of the placed state is the bit of the vector that was placed. -/
theorem placedWordIsThePresentedWord : Obligations.PlacedWordIsThePresentedWord := by
  intro s w
  cases w with
  | sel v =>
    obtain ⟨p, edge, rst, tu, levels⟩ := nextStimulus_placeSel s v
    have pending : (placeSel s v).zcPend = v.getLsbD 1 := rfl
    rw [placeWord, presentedWord_of_edge edge, selVector_takeStimulus_of_edge edge, rst, placeSel_mode,
      placeSel_cntZ, placeSel_atFloor, tu, pending, qualifies_placeSel levels, selOf_bits]
  | thr r => exact presentedWord_of_request rfl

/-! ## One step (R116) -/

/-- A step is the selected operation on the taken inputs. -/
theorem step_eq_exec {s : State} {i : Instr} (accepted : parameterRefusal s = none)
    (selected : decode (presentedWord s) = .op i) : step s = exec i (takeStimulus s) := by
  simp [step, accepted, selected]

/-- Settles O10: the step, and the three ways of taking a stimulus. -/
theorem stepRunsTheDecodedOperation : Obligations.StepRunsTheDecodedOperation := by
  intro s i accepted selected _
  refine ⟨step_eq_exec accepted selected, ?_⟩
  rcases takeStimulus_cases s with ⟨none_listed, -, taken⟩ | ⟨p, rest, listed, -, taken⟩ | ⟨r, rest, listed, -, taken⟩
  · exact .inl ⟨none_listed, taken⟩
  · exact .inr (.inl ⟨p, rest, listed, taken⟩)
  · exact .inr (.inr ⟨r, rest, listed, taken⟩)

/-- What a clock edge of Running without reset selects. -/
theorem decode_of_running_edge_eq {s : State} {p : Pins} (edge : nextStimulus s = .edge p) (mode : s.mode = .running)
    (rst : p.rst = false) : decode (presentedWord s) = .op (runningSelection s.zcPend (qualifies s p)) := by
  rw [presentedWord_of_edge edge, selVector_takeStimulus_of_edge edge, rst, mode]
  exact decode_selOf_runningSelection ..

/-- R111, R112: a hit is an edge of the expected polarity that an armed detector sees. -/
theorem qualifies_iff {s : State} {p : Pins} :
    qualifies s p = true ↔ s.armed = true ∧ edge (entryFor s.cfg s.step.toNat).pol
      (sampleOf s.cmpQ (entryFor s.cfg s.step.toNat).flt)
      (sampleOf (cmpOf p) (entryFor s.cfg s.step.toNat).flt) = true := by
  simp only [qualifies, currentEntry, Bool.and_eq_true]

/-- Settles O14: reset before everything; in Starting the wait, then the floor; in Running the request, then the hit. -/
theorem cycleSelectsByNestedConditions : Obligations.CycleSelectsByNestedConditions := by
  intro s p edge adm
  have selects {i : Instr} (selected : decode (presentedWord s) = .op i) : step s = exec i (takeStimulus s) :=
    step_eq_exec ((parameterRefusal_of_edge edge).mpr adm) selected
  simp only [← qualifies_iff]
  cases rst : p.rst with
  | true => simp [selects (decode_of_reset_edge edge rst)]
  | false =>
    cases mode : s.mode with
    | starting =>
      rw [selects (decode_of_starting_edge edge mode rst)]
      by_cases wait : s.cnt = 0
      · by_cases floor : s.dly ≤ s.cfg.delayFloor <;> simp [startingSelection, wait, floor]
      · cases tu : p.tu <;> simp [startingSelection, wait]
    | running =>
      rw [selects (decode_of_running_edge_eq edge mode rst)]
      cases s.zcPend <;> cases qualifies s p <;> simp [runningSelection]

/-! ## WAIT (R93) -/

/-- Settles O18: what WAIT writes; and with the wait run out, the two ticks of R91. -/
theorem waitCountsOneTimeUnit : Obligations.WaitCountsOneTimeUnit := by
  refine ⟨fun s wait => ⟨_, execWait_next.mpr rfl, ?_, rfl⟩, fun s p mode tick edge rst => ?_⟩
  · exact Nat.sub_one_add_one wait
  · rcases Nat.lt_or_ge s.cfg.delayFloor s.dly with above | floor
    · exact .inl (decode_of_tick_above_floor edge mode rst tick above)
    · exact .inr (decode_of_tick_at_floor edge mode rst tick floor)

/-! ## FSTEP_LAST (R95) -/

@[simp] theorem currentEntry_transitionToRunning (s : State) :
    currentEntry (transitionToRunning s) = currentEntry s := rfl

/-- R95: after FSTEP_LAST the entry being driven and monitored is the one after the old step's. -/
theorem currentEntry_after_fstepLast (s : State) :
    currentEntry (transitionToRunning (applyEntry (sampleEdge s))) = entryFor s.cfg (s.step.toNat + 1) := by
  rw [currentEntry_transitionToRunning, currentEntry_applyEntry, advancedEntry_sampleEdge, advancedEntry_eq]

/-- Everything the transition writes (R108). -/
theorem transitionToRunning_eq (s : State) :
    transitionToRunning s =
      { s with
        mode := .running
        armed := true
        events := s.events ++ [.arm (currentEntry s).flt (currentEntry s).pol] } := rfl

/-- Everything FSTEP_LAST writes (R95). -/
theorem fstepLast_writes (s : State) :
    transitionToRunning (applyEntry (sampleEdge s)) =
      { s with
        mode := .running
        step := advancedStep s
        en := true
        armed := true
        cmpQ := cmpOf s.pins
        events := [.setPattern (advancedEntry s).hi (advancedEntry s).lo,
          .arm (advancedEntry s).flt (advancedEntry s).pol, .arm (advancedEntry s).flt (advancedEntry s).pol] } := by
  rw [transitionToRunning_eq, currentEntry_applyEntry, advancedEntry_sampleEdge]
  rfl

/-- Settles O20: what FSTEP_LAST writes, with the new entry on the pins. -/
theorem fstepLastForcesTheBoundaryStepAndStartsRunning :
    Obligations.FstepLastForcesTheBoundaryStepAndStartsRunning := by
  intro s mode
  have entry := currentEntry_after_fstepLast s
  refine ⟨_, execFstepLast_next.mpr ⟨mode, rfl⟩, fstepLast_writes s, ?_, ?_, ?_⟩
  · rw [gates_of_en rfl, entry]
  · rw [sensePh, entry]
  · rw [sensePol, entry]

/-! ## Refusals (R106, R8) -/

/-- R106: the two forced steps of the sequencer are refused with the call that they make. -/
theorem exec_forced_refused {i : Instr} {s : State} (forced : i = .fstep ∨ i = .fstepLast) (mode : s.mode = .running) :
    exec i s = .refused .forceStepWhileRunning := by
  have called : forceStepAdvance (sampleEdge s) = .refused .forceStepWhileRunning :=
    forceStepAdvance_refused.mpr ⟨mode, rfl⟩
  rcases forced with rfl | rfl
  · exact thenDo_refused.mpr called
  · exact thenDo_refused.mpr called

/-- A selected operation is never refused: a clock edge selects a forced step in Starting only. -/
theorem exec_of_selected_answers {s : State} {i : Instr} (selected : decode (presentedWord s) = .op i) :
    ∃ t, exec i (takeStimulus s) = .next t := by
  cases stimulus : nextStimulus s with
  | edge p =>
    refine exec_answers fun forced => ?_
    rw [takeStimulus_mode, starting_of_forced_selected stimulus selected forced]
  | request r =>
    rw [presentedWord_of_request stimulus] at selected
    exact exec_throttleOps_answers (decode_thr_mem selected) _

/-- R7, R8: the two refusals that precede the decoding. -/
theorem parameterRefusal_eq_some {s : State} {r : Refusal} (refused : parameterRefusal s = some r) :
    r = .inadmissibleConfiguration ∨ r = .inadmissibleThrottleParameters := by
  unfold parameterRefusal at refused
  split at refused
  · split at refused <;> cases refused
    exact .inl rfl
  · split at refused <;> cases refused
    exact .inr rfl

/-- R106, U2: no step makes the call that is refused. -/
theorem step_ne_forceStepWhileRunning (s : State) : step s ≠ .refused .forceStepWhileRunning := by
  cases accepted : parameterRefusal s with
  | some r =>
    rw [step_of_parameterRefusal accepted]
    rcases parameterRefusal_eq_some accepted with rfl | rfl <;> nofun
  | none =>
    cases selected : decode (presentedWord s) with
    | op i =>
      obtain ⟨t, performed⟩ := exec_of_selected_answers selected
      rw [step_eq_exec accepted selected, performed]
      nofun
    | rejected r =>
      rw [step_of_rejected accepted selected]
      cases r <;> nofun

/-- Settles O21: the call in Starting is ApplyEntry; in Running it is refused, alone and inside both forced steps; and
no step makes it there. -/
theorem forceStepIsRefusedWhileRunning : Obligations.ForceStepIsRefusedWhileRunning := by
  refine ⟨fun s mode => ⟨_, forceStepAdvance_next.mpr ⟨mode, rfl⟩, ?_, rfl, ?_, ?_⟩, fun s mode => ⟨?_, ?_, ?_⟩,
    step_ne_forceStepWhileRunning⟩
  · rw [applyEntry_step, advancedStep_toNat, inc6]
  · simp [mode]
  · rw [applyEntry_events, advancedEntry_eq, List.append_assoc]
    rfl
  · exact forceStepAdvance_refused.mpr ⟨mode, rfl⟩
  · exact exec_forced_refused (.inl rfl) mode
  · exact exec_forced_refused (.inr rfl) mode

/-- R8: the refusal of a neighbour call is that of its bounds, whatever the request. -/
theorem parameterRefusal_of_request_of_not_admissible {s : State} {r : ThrReq} (h : nextStimulus s = .request r)
    (hc : ¬ ThrottleAdmissible s.cfg) : parameterRefusal s = some .inadmissibleThrottleParameters := by
  simp only [parameterRefusal, h]
  exact if_neg hc

/-- Settles O28: each listed violation breaks R8, and the step refuses before it decodes. -/
theorem inadmissibleDutyBoundsAreRefused : Obligations.InadmissibleDutyBoundsAreRefused := by
  intro s r request listed
  refine step_of_parameterRefusal (parameterRefusal_of_request_of_not_admissible request ?_)
  rintro ⟨ordered, low, high⟩
  omega

end Sys2Proof.Machine
end

section
/-! PROOFS of the family other, third part: which inputs a clock edge ignores, the two edges of an advance in Running,
the stall, and the operations of the two modes. -/

namespace Sys2Proof.Machine

/-! ## What each mode performs (R21, R154) -/

/-- A clock edge performs an operation of CORE, a request one of the neighbour: an operation of CORE has its edge. -/
theorem edge_of_coreOps_selected {s : State} {i : Instr} (core : i ∈ coreOps)
    (selected : decode (presentedWord s) = .op i) : ∃ p, nextStimulus s = .edge p := by
  cases stimulus : nextStimulus s with
  | edge p => exact ⟨p, rfl⟩
  | request r =>
    rw [presentedWord_of_request stimulus] at selected
    exact absurd core (throttleOps_disjoint_coreOps i (decode_thr_mem selected))

/-- R154: no operation of Running writes the registers of the ramp timer. -/
theorem exec_runningOps_keeps_ramp {i : Instr} {s t : State} (mem : i ∈ runningOps) (performed : exec i s = .next t) :
    t.dly = s.dly ∧ t.cnt = s.cnt := by
  simp only [runningOps, List.mem_cons, List.not_mem_nil, or_false] at mem
  rcases mem with rfl | rfl | rfl
  · rw [execRunIdle_next.mp performed]; exact ⟨rfl, rfl⟩
  · rw [execZcdet_next.mp performed]; exact ⟨rfl, rfl⟩
  · rw [execZcadv_next.mp performed]; exact ⟨rfl, rfl⟩

/-- Settles O43: the edge of an operation of CORE selects by the mode, and what Running selects leaves the ramp. -/
theorem eachModePerformsOnlyItsOperations : Obligations.EachModePerformsOnlyItsOperations := by
  intro s t i stepped selected core not_reset
  obtain ⟨-, j, selected_j, performed⟩ := step_next.mp stepped
  obtain rfl : i = j := Decoded.op.inj (selected.symm.trans selected_j)
  obtain ⟨p, edge⟩ := edge_of_coreOps_selected core selected
  rcases selected_of_edge edge selected with ⟨-, reset⟩ | ⟨-, mode, mem⟩ | ⟨-, mode, mem⟩
  · exact absurd reset not_reset
  · rw [mode]
    exact ⟨fun _ => mem, nofun⟩
  · obtain ⟨dly, cnt⟩ := exec_runningOps_keeps_ramp mem performed
    rw [takeStimulus_dly] at dly
    rw [takeStimulus_cnt] at cnt
    rw [mode]
    exact ⟨nofun, fun _ => ⟨mem, dly, cnt⟩⟩

/-- R21: RESET ends in Starting, FSTEP_LAST in Running, and every other operation in the mode before it. -/
theorem exec_mode {i : Instr} {s t : State} (performed : exec i s = .next t) :
    (i = .reset ∧ t.mode = .starting) ∨ (i = .fstepLast ∧ t.mode = .running) ∨ t.mode = s.mode := by
  by_cases other : i ∈ [Instr.reset, .fstepLast]
  · simp only [List.mem_cons, List.not_mem_nil, or_false] at other
    rcases other with rfl | rfl
    · exact .inl ⟨rfl, by rw [execReset_next.mp performed, resetCore_mode]⟩
    · exact .inr (.inl ⟨rfl, by rw [(execFstepLast_next.mp performed).2, transitionToRunning_mode]⟩)
  · exact .inr (.inr (exec_keeps_mode other performed))

/-- Settles O41: a change of the mode names its writer. -/
theorem modeChangesOnlyByItsTwoWriters : Obligations.ModeChangesOnlyByItsTwoWriters := by
  refine ⟨rfl, fun s t stepped => ?_⟩
  obtain ⟨-, i, selected, performed⟩ := step_next.mp stepped
  have writer := exec_mode performed
  rw [takeStimulus_mode] at writer
  rw [selected]
  rcases writer with ⟨rfl, mode⟩ | ⟨rfl, mode⟩ | mode <;> rw [mode]
  · exact ⟨nofun, fun _ _ => rfl⟩
  · exact ⟨fun _ _ => rfl, nofun⟩
  · cases s.mode <;> exact ⟨nofun, nofun⟩

/-! ## Inputs that make no difference (R32, R168, R176) -/

/-- No operation of CORE reads the stored samples: RESET and the sampling both overwrite them. -/
theorem exec_coreOps_of_other_samples {i : Instr} (mem : i ∈ coreOps) (s : State) (q : BitVec 3) :
    exec i { s with cmpQ := q } = exec i s := by
  simp only [coreOps, List.mem_cons, List.not_mem_nil, or_false] at mem
  rcases mem with rfl | rfl | rfl | rfl | rfl | rfl | rfl | rfl <;> rfl

theorem takeStimulus_of_other_samples (s : State) (q : BitVec 3) :
    takeStimulus { s with cmpQ := q } = { takeStimulus s with cmpQ := q } := by
  obtain ⟨_, _, _, _, _, _, _, _, _, _, _, stimulus, _, _, _⟩ := s
  match stimulus with
  | [] => rfl
  | .edge _ :: _ => rfl
  | .request _ :: _ => rfl

/-- R111: with the detector disarmed the condition bits do not read the samples. -/
theorem presentedWord_of_other_samples {s : State} {p : Pins} (edge : nextStimulus s = .edge p)
    (disarmed : s.armed = false) (q : BitVec 3) : presentedWord { s with cmpQ := q } = presentedWord s := by
  have edge' : nextStimulus { s with cmpQ := q } = .edge p := edge
  rw [presentedWord_of_edge edge', presentedWord_of_edge edge, selVector_takeStimulus_of_edge edge',
    selVector_takeStimulus_of_edge edge, qualifies_of_not_armed disarmed,
    qualifies_of_not_armed (s := { s with cmpQ := q }) disarmed]

/-- Settles O33: the samples reach an edge through `zc_hit` alone, which a disarmed detector does not show. -/
theorem disarmedDetectorIgnoresSamples : Obligations.DisarmedDetectorIgnoresSamples := by
  intro s p q edge disarmed
  obtain ⟨i, selected⟩ := decode_of_edge edge
  have selected' : decode (presentedWord { s with cmpQ := q }) = .op i := by
    rw [presentedWord_of_other_samples edge disarmed, selected]
  have same_refusal : parameterRefusal { s with cmpQ := q } = parameterRefusal s := rfl
  cases accepted : parameterRefusal s with
  | some r => rw [step_of_parameterRefusal accepted, step_of_parameterRefusal (same_refusal.trans accepted)]
  | none =>
    rw [step_eq_exec accepted selected, step_eq_exec (same_refusal.trans accepted) selected',
      takeStimulus_of_other_samples, exec_coreOps_of_other_samples (coreOps_of_selected edge selected)]

/-- An operation of Running reads of the pins nothing but the levels that it copies. -/
theorem exec_runningOps_of_other_pins {i : Instr} {s t : State} (mem : i ∈ runningOps)
    (performed : exec i s = .next t) (p : Pins) :
    exec i { s with pins := p } = .next { t with cmpQ := cmpOf p, pins := p } := by
  simp only [runningOps, List.mem_cons, List.not_mem_nil, or_false] at mem
  rcases mem with rfl | rfl | rfl
  · cases execRunIdle_next.mp performed
    exact execRunIdle_next.mpr rfl
  · cases execZcdet_next.mp performed
    exact execZcdet_next.mpr rfl
  · cases execZcadv_next.mp performed
    exact execZcadv_next.mpr rfl

/-- RESET reads no pin. -/
theorem exec_reset_of_other_pins {s t : State} (performed : exec .reset s = .next t) (p : Pins) :
    exec .reset { s with pins := p } = .next { t with pins := p } := by
  cases execReset_next.mp performed
  exact execReset_next.mpr rfl

/-- A listed edge replaced by one whose vector selects the same operation: the step performs it on the other pins. -/
theorem step_of_other_edge {s t : State} {p p' : Pins} {l : List Stimulus} {i : Instr}
    (listed : s.stimulus = .edge p :: l) (stepped : step s = .next t)
    (selected : decode (presentedWord s) = .op i)
    (selected' : decode (presentedWord { s with stimulus := .edge p' :: l }) = .op i) :
    exec i (takeStimulus s) = .next t ∧
      step { s with stimulus := .edge p' :: l } = exec i { takeStimulus s with pins := p' } := by
  obtain ⟨edge, taken⟩ := takeStimulus_of_listed_edge listed
  obtain ⟨accepted, j, selected_j, performed⟩ := step_next.mp stepped
  obtain rfl : i = j := Decoded.op.inj (selected.symm.trans selected_j)
  refine ⟨performed, ?_⟩
  have accepted' : parameterRefusal { s with stimulus := .edge p' :: l } = none :=
    (parameterRefusal_of_edge (p := p') rfl).mpr ((parameterRefusal_of_edge edge).mp accepted)
  rw [step_eq_exec accepted' selected', taken]
  rfl

/-- Settles O37: with a request pending the handler is selected whatever the comparators say, and it copies them. -/
theorem lostEdgeWindowIgnoresComparators : Obligations.LostEdgeWindowIgnoresComparators := by
  intro s t p p' l listed mode pending rst rst' stepped
  obtain ⟨edge, -⟩ := takeStimulus_of_listed_edge listed
  obtain ⟨performed, other⟩ := step_of_other_edge (p' := p') listed stepped
    (decode_of_pending_edge edge mode pending rst) (decode_of_pending_edge rfl mode pending rst')
  rw [other]
  exact exec_runningOps_of_other_pins (by decide) performed p'

theorem mode_cases (s : State) : s.mode = .starting ∨ s.mode = .running := by
  cases s.mode
  · exact .inl rfl
  · exact .inr rfl

/-- R32: outside a wait the vector selects the same whatever the strobe. -/
theorem decode_of_other_strobe {s : State} {p p' : Pins} {l : List Stimulus}
    (listed : s.stimulus = .edge p :: l) (same_rst : p'.rst = p.rst) (same_levels : cmpOf p' = cmpOf p)
    (not_waiting : ¬ (s.mode = .starting ∧ s.cnt ≠ 0 ∧ p.rst = false)) :
    decode (presentedWord { s with stimulus := .edge p' :: l }) = decode (presentedWord s) := by
  obtain ⟨edge, -⟩ := takeStimulus_of_listed_edge listed
  have edge' : nextStimulus { s with stimulus := .edge p' :: l } = .edge p' := rfl
  cases rst : p.rst with
  | true => rw [decode_of_reset_edge edge rst, decode_of_reset_edge edge' (same_rst.trans rst)]
  | false =>
    have rst' : p'.rst = false := same_rst.trans rst
    rcases mode_cases s with mode | mode
    · have tick : s.cnt = 0 := by
        by_contra waiting
        exact not_waiting ⟨mode, waiting, rst⟩
      rw [decode_of_starting_edge edge mode rst]
      refine (decode_of_starting_edge edge' mode rst').trans ?_
      simp [startingSelection, tick]
    · have same_hit : qualifies { s with stimulus := .edge p' :: l } p' = qualifies s p := by
        simp only [qualifies, same_levels]
        rfl
      rw [decode_of_running_edge_eq edge mode rst, ← same_hit]
      exact decode_of_running_edge_eq edge' mode rst'

/-- Settles O31: the same operation is selected, and no operation reads the strobe. -/
theorem strobeMattersOnlyDuringAWait : Obligations.StrobeMattersOnlyDuringAWait := by
  intro s t p l b listed not_waiting stepped
  obtain ⟨edge, -⟩ := takeStimulus_of_listed_edge listed
  obtain ⟨-, i, selected, -⟩ := step_next.mp stepped
  have selected' : decode (presentedWord { s with stimulus := .edge { p with tu := b } :: l }) = .op i :=
    (decode_of_other_strobe (p' := { p with tu := b }) listed rfl rfl not_waiting).trans selected
  obtain ⟨performed, other⟩ := step_of_other_edge listed stepped selected selected'
  rw [other]
  have copied (rst : p.rst = false) : t.cmpQ = cmpOf { p with tu := b } := by
    rw [step_samples edge stepped, rst]
    rfl
  rcases selected_of_edge edge selected with ⟨-, rfl⟩ | ⟨rst, -, mem⟩ | ⟨rst, -, mem⟩
  · exact exec_reset_of_other_pins performed _
  · have same := exec_startingOps_of_other_samples mem performed (takeStimulus s).cmpQ { p with tu := b }
    rwa [← copied rst] at same
  · have same := exec_runningOps_of_other_pins mem performed { p with tu := b }
    rwa [← copied rst] at same

/-! ## An advance in Running takes two edges (R120) -/

theorem step_of_hit {s : State} {p : Pins} (edge : nextStimulus s = .edge p) (adm : Admissible s.cfg)
    (mode : s.mode = .running) (idle : s.zcPend = false) (rst : p.rst = false) (hit : qualifies s p = true) :
    step s = .next (requestZeroCrossing (sampleEdge (takeStimulus s))) := by
  refine step_of_edge (i := .zcdet) edge adm ?_ (execZcdet_next.mpr rfl)
  rw [decode_of_running_edge_eq edge mode rst, idle, hit]
  rfl

theorem step_of_pending {s : State} {p : Pins} (edge : nextStimulus s = .edge p) (adm : Admissible s.cfg)
    (mode : s.mode = .running) (pending : s.zcPend = true) (rst : p.rst = false) :
    step s = .next (onZeroCrossingEvent (sampleEdge (takeStimulus s))) :=
  step_of_edge edge adm (decode_of_pending_edge edge mode pending rst) (execZcadv_next.mpr rfl)

theorem step_of_no_hit {s : State} {p : Pins} (edge : nextStimulus s = .edge p) (adm : Admissible s.cfg)
    (mode : s.mode = .running) (idle : s.zcPend = false) (rst : p.rst = false) (no_hit : qualifies s p = false) :
    step s = .next (sampleEdge (takeStimulus s)) := by
  refine step_of_edge (i := .runIdle) edge adm ?_ (execRunIdle_next.mpr rfl)
  rw [decode_of_running_edge_eq edge mode rst, idle, no_hit]
  rfl

/-- Settles O38: the hit raises the request, which selects the handler at the second edge. -/
theorem qualifyingEdgeAdvancesInTwoEdges : Obligations.QualifyingEdgeAdvancesInTwoEdges := by
  intro s p p' l adm mode idle listed rst rst' hit
  obtain ⟨edge, taken⟩ := takeStimulus_of_listed_edge listed
  let u := requestZeroCrossing (sampleEdge (takeStimulus s))
  have listed' : u.stimulus = .edge p' :: l := by simp [u, taken]
  obtain ⟨edge', taken'⟩ := takeStimulus_of_listed_edge listed'
  have adm' : Admissible u.cfg := by simpa [u] using adm
  have mode' : u.mode = .running := by simpa [u] using mode
  have step' : u.step = s.step := by simp [u]
  have cfg' : u.cfg = s.cfg := by simp [u]
  refine ⟨u, _, step_of_hit edge adm mode idle rst hit, step_of_pending edge' adm' mode' rfl rst', rfl, rfl, step',
    gates_congr cfg' step' (takeStimulus_en s), rfl, ?_, ?_, ?_, ?_, ?_⟩
  · simp [mode']
  · simp [mode']
  · simp [taken']
  · rw [onZeroCrossingEvent_step, advancedStep_toNat, sampleEdge_step, takeStimulus_step, step', inc6]
  · rw [gates_of_en rfl, currentEntry_after_zcadv, takeStimulus_cfg, takeStimulus_step, step', cfg']

/-- Settles O39: after a handler nothing is pending in Running, so the next edge selects no handler. -/
theorem advancesAreTwoEdgesApart : Obligations.AdvancesAreTwoEdgesApart := by
  intro s t u p stepped zcadv edge rst stepped'
  obtain ⟨-, -, -, served⟩ := requestIsRaisedByAnEdgeAndClearedByTheHandler s t stepped
  obtain ⟨-, idle⟩ := served zcadv
  obtain ⟨-, -, -, kept_mode⟩ := stepIsWrittenOnlyByItsOwners s t .zcadv stepped zcadv
  have mode : t.mode = .running := by rw [kept_mode (by decide), running_of_selected (by decide) zcadv]
  have selected := decode_of_running_edge_eq edge mode rst
  obtain ⟨-, -, kept_step, -⟩ := stepIsWrittenOnlyByItsOwners t u _ stepped' selected
  refine kept_step ?_
  rw [idle]
  cases qualifies t p <;> decide

/-! ## A stall (R152) -/

/-- R112: where the monitored level stays what it was there is no hit. -/
theorem qualifies_of_same_level {s : State} {p : Pins}
    (same : sampleOf (cmpOf p) (currentEntry s).flt = sampleOf s.cmpQ (currentEntry s).flt) :
    qualifies s p = false := by
  rw [qualifies, same, edge_same, Bool.and_false]

/-- The runs of the host's machine are iterated steps. -/
theorem core_run_succ {s t : State} (stepped : step s = .next t) (n : Nat) :
    Sys2Proof.core.run (n + 1) s = Sys2Proof.core.run n t := by
  have core_step : Sys2Proof.core.step s = .next t := stepped
  simp only [Host.Core.run, core_step]

/-- R152, one edge and then the rest: RUN_IDLE leaves everything that the next edge's condition reads, the monitored
level too. -/
theorem run_of_stall (l : List Pins) (s : State) (adm : Admissible s.cfg) (mode : s.mode = .running)
    (idle : s.zcPend = false) (listed : s.stimulus = l.map Stimulus.edge)
    (quiet : ∀ p ∈ l, p.rst = false ∧
      sampleOf (cmpOf p) (currentEntry s).flt = sampleOf s.cmpQ (currentEntry s).flt) :
    ∃ t : State, Sys2Proof.core.run l.length s = .next t ∧
      t = { s with cmpQ := t.cmpQ, pins := t.pins, stimulus := [], events := t.events } := by
  induction l generalizing s with
  | nil => exact ⟨s, rfl, by rw [← show s.stimulus = [] from listed]⟩
  | cons p l ih =>
    obtain ⟨⟨rst, same⟩, quiet_rest⟩ := List.forall_mem_cons.mp quiet
    obtain ⟨edge, taken⟩ := takeStimulus_of_listed_edge listed
    have stepped := step_of_no_hit edge adm mode idle rst (qualifies_of_same_level same)
    rw [taken] at stepped
    obtain ⟨t, ran, frame⟩ := ih (sampleEdge { s with pins := p, stimulus := l.map Stimulus.edge }) adm mode idle rfl
      (fun q mem => by
        obtain ⟨rst_q, same_q⟩ := quiet_rest q mem
        exact ⟨rst_q, same_q.trans same.symm⟩)
    exact ⟨t, (core_run_succ stepped l.length).trans ran, frame⟩

/-- Settles O40: the frame of a stall leaves what the gates follow from. -/
theorem stallKeepsThePattern : Obligations.StallKeepsThePattern := by
  intro s l adm mode _ idle listed quiet
  obtain ⟨t, ran, frame⟩ := run_of_stall l s adm mode idle listed quiet
  refine ⟨t, ran, frame, ?_⟩
  rw [frame]
  exact gates_congr rfl rfl rfl

end Sys2Proof.Machine
end

section
/-! PROOFS of the family other, fourth part: valid tables (R82, R83), the gates of the bridge (I7 of R29), and the six
patterns of a revolution (R117, R180). -/

namespace Sys2Proof.Machine

/-! ## The gates of a pattern (R59) -/

/-- A switch is a high-side or a low-side one. -/
theorem switchCount_eq : ∀ g : GateWord, switchCount g = (highPhases g).length + (lowPhases g).length := by
  decide

theorem highPhases_gateDecode (hi lo : Phase) : highPhases (gateDecode hi lo) = [hi] := by
  have selected : (fun p => (gateDecode hi lo).getLsbD (highBit p)) = fun p => decide (p = hi) := by
    funext p
    rw [Bool.eq_iff_iff, gateDecode_highBit, decide_eq_true_iff]
  rw [highPhases, selected]
  cases hi <;> rfl

theorem lowPhases_gateDecode (hi lo : Phase) : lowPhases (gateDecode hi lo) = [lo] := by
  have selected : (fun p => (gateDecode hi lo).getLsbD (lowBit p)) = fun p => decide (p = lo) := by
    funext p
    rw [Bool.eq_iff_iff, gateDecode_lowBit, decide_eq_true_iff]
  rw [lowPhases, selected]
  cases lo <;> rfl

theorem switchCount_gateDecode (hi lo : Phase) : switchCount (gateDecode hi lo) = 2 := by
  rw [switchCount_eq, highPhases_gateDecode, lowPhases_gateDecode]
  rfl

/-- The high-side switches that are on in the one vector and off in the other. -/
theorem highPhases_and_not (g h : GateWord) :
    highPhases (g &&& ~~~h) = (highPhases g).filter fun p => !h.getLsbD (highBit p) := by
  rw [highPhases, highPhases, List.filter_filter]
  congr 1
  funext p
  rw [BitVec.getLsbD_and, BitVec.getLsbD_not, decide_eq_true (highBit_lt p), Bool.true_and, Bool.and_comm]

/-- The low-side switches that are on in the one vector and off in the other. -/
theorem lowPhases_and_not (g h : GateWord) :
    lowPhases (g &&& ~~~h) = (lowPhases g).filter fun p => !h.getLsbD (lowBit p) := by
  rw [lowPhases, lowPhases, List.filter_filter]
  congr 1
  funext p
  rw [BitVec.getLsbD_and, BitVec.getLsbD_not, decide_eq_true (lowBit_lt p), Bool.true_and, Bool.and_comm]

/-- From one pattern to another as many switches change as of the two phases differ. -/
theorem switchCount_gateDecode_and_not (hi lo hi' lo' : Phase) :
    switchCount (gateDecode hi lo &&& ~~~(gateDecode hi' lo')) =
      (if hi = hi' then 0 else 1) + (if lo = lo' then 0 else 1) := by
  rw [switchCount_eq, highPhases_and_not, lowPhases_and_not, highPhases_gateDecode, lowPhases_gateDecode]
  congr 1
  · by_cases same : hi = hi'
    · have on : (gateDecode hi' lo').getLsbD (highBit hi) = true := gateDecode_highBit.mpr same
      rw [if_pos same]
      simp [on]
    · have off : (gateDecode hi' lo').getLsbD (highBit hi) = false := by
        rw [← Bool.not_eq_true, gateDecode_highBit]
        exact same
      rw [if_neg same]
      simp [off]
  · by_cases same : lo = lo'
    · have on : (gateDecode hi' lo').getLsbD (lowBit lo) = true := gateDecode_lowBit.mpr same
      rw [if_pos same]
      simp [on]
    · have off : (gateDecode hi' lo').getLsbD (lowBit lo) = false := by
        rw [← Bool.not_eq_true, gateDecode_lowBit]
        exact same
      rw [if_neg same]
      simp [off]

/-- A gate vector tells its pattern. -/
theorem gateDecode_inj {hi lo hi' lo' : Phase} (same : gateDecode hi lo = gateDecode hi' lo') :
    hi = hi' ∧ lo = lo' := by
  constructor
  · rw [← gateDecode_highBit (lo := lo'), ← same, gateDecode_highBit]
  · rw [← gateDecode_lowBit (hi := hi'), ← same, gateDecode_lowBit]

/-- Settles O51: the gates are those of the entry, whose phases V2 and V3 keep apart. -/
theorem energizedPatternIsSafe : Obligations.EnergizedPatternIsSafe := by
  rintro s ⟨differ, floating, -, -⟩
  refine ⟨gates_of_not_en, fun en => ?_⟩
  rw [AssertsOnePattern, gates_of_en en, switchCount_gateDecode]
  exact ⟨⟨_, _, highPhases_gateDecode .., lowPhases_gateDecode .., differ (mod6 s.step.toNat),
    floating (mod6 s.step.toNat)⟩, rfl⟩

/-! ## The entries of a valid table (R82, R83) -/

/-- The DrivePattern of an entry (R76). -/
def patternOf (e : CommutationEntry) : Phase × Phase := (e.hi, e.lo)

/-- The six DrivePatterns: the ordered pairs of two different phases. -/
def drivePatterns : List (Phase × Phase) := [(.U, .V), (.U, .W), (.V, .U), (.V, .W), (.W, .U), (.W, .V)]

theorem mem_drivePatterns {hi lo : Phase} : (hi, lo) ∈ drivePatterns ↔ hi ≠ lo := by
  cases hi <;> cases lo <;> decide

/-- An entry of the table is the entry at one of the six addresses. -/
theorem mem_table {t : Table} {e : CommutationEntry} (mem : e ∈ t.toList) : ∃ k : Fin 6, t[k] = e := by
  obtain ⟨k, bound, at_k⟩ := List.mem_iff_getElem.mp mem
  exact ⟨⟨k, by simpa using bound⟩, at_k⟩

/-- V4 of R82: no pattern stands twice in the table. -/
theorem nodup_patterns {t : Table} (different : ValidAllDifferent t) : (t.toList.map patternOf).Nodup := by
  refine List.pairwise_iff_getElem.mpr fun i j bound_i bound_j lt => ?_
  have six : (t.toList.map patternOf).length = 6 := by simp
  have differ := different ⟨i, six ▸ bound_i⟩ ⟨j, six ▸ bound_j⟩ (by simp [Fin.ext_iff, Nat.ne_of_lt lt])
  simpa [patternOf] using differ

/-- The heart of R83 (a), (b): six different pairs of different phases are all six of them. -/
theorem patterns_perm {t : Table} (valid : ValidTable t) : (t.toList.map patternOf).Perm drivePatterns := by
  obtain ⟨differ, -, different, -⟩ := valid
  refine (List.subperm_of_subset (nodup_patterns different) fun q mem => ?_).perm_of_length_le (by simp [drivePatterns])
  obtain ⟨e, mem_e, rfl⟩ := List.mem_map.mp mem
  obtain ⟨k, rfl⟩ := mem_table mem_e
  exact mem_drivePatterns.mpr (differ k)

/-- Entries are counted by their patterns among the six. -/
theorem countP_table {t : Table} (valid : ValidTable t) (f : Phase × Phase → Bool) :
    (t.toList.countP fun e => f (patternOf e)) = drivePatterns.countP f := by
  rw [← (patterns_perm valid).countP_eq, List.countP_map]
  rfl

/-- V3 of R82: the floating phase of an entry is a function of its pattern. -/
theorem countP_floating {t : Table} (floating : ValidFloating t) (p : Phase) :
    (t.toList.countP fun e => e.flt == p) =
      t.toList.countP fun e => third (patternOf e).1 (patternOf e).2 == some p := by
  refine List.countP_congr fun e mem => ?_
  obtain ⟨k, rfl⟩ := mem_table mem
  have third_k : third (patternOf t[k]).1 (patternOf t[k]).2 = some t[k].flt := floating k
  rw [third_k, beq_iff_eq, beq_iff_eq, Option.some.injEq]

/-- R83 (d): where one of two switches stays, the other phase of each entry cannot be on the opposite side of the
next. -/
theorem no_side_change {e f : CommutationEntry} (differ_e : e.hi ≠ e.lo) (differ_f : f.hi ≠ f.lo)
    (rotates : (e.hi = f.hi ∧ e.lo ≠ f.lo) ∨ (e.lo = f.lo ∧ e.hi ≠ f.hi)) : f.hi ≠ e.lo ∧ f.lo ≠ e.hi := by
  rcases rotates with ⟨hi, -⟩ | ⟨lo, -⟩
  · exact ⟨hi ▸ differ_e, hi ▸ differ_f.symm⟩
  · exact ⟨lo ▸ differ_f, lo ▸ differ_e.symm⟩

/-- Settles O54: the counts are those among the six patterns; the rotation of V5; and the period of inc6. -/
theorem validTableFloatsEachPhaseTwice : Obligations.ValidTableFloatsEachPhaseTwice := by
  refine ⟨fun t valid p => ⟨?_, ?_, ?_⟩, fun t valid s => ?_, by decide⟩
  · have ⟨_, floating, _, _⟩ := valid
    rw [countP_floating floating, countP_table valid fun q => third q.1 q.2 == some p]
    cases p <;> rfl
  · refine (countP_table valid fun q => q.1 == p).trans ?_
    cases p <;> rfl
  · refine (countP_table valid fun q => q.2 == p).trans ?_
    cases p <;> rfl
  · obtain ⟨differ, -, -, rotates⟩ := valid
    exact no_side_change (differ s) (differ (mod6 (inc6 s))) (rotates s)

/-- Settles O53: the contents are those the model writes. -/
theorem referenceTableContents : Obligations.ReferenceTableContents :=
  ⟨by decide, rfl, rfl, rfl⟩

/-! ## The pattern at a step (R34, R80) -/

/-- The gates of the entry at a step while energized. -/
def patternAt (c : Cfg) (a : Nat) : GateWord := gateDecode (entryFor c a).hi (entryFor c a).lo

theorem gates_eq_patternAt {s : State} (en : s.en = true) : gates s = patternAt s.cfg s.step.toNat :=
  gates_of_en en

theorem patternAt_congr {a b : Nat} (c : Cfg) (same : a % 6 = b % 6) : patternAt c a = patternAt c b := by
  rw [patternAt, ← entryFor_mod, same, entryFor_mod, patternAt]

/-- V4 of R82: the patterns at two steps are the same only where the steps are, modulo 6. -/
theorem mod_eq_of_patternAt_eq {c : Cfg} {a b : Nat} (different : ValidAllDifferent c.table)
    (same : patternAt c a = patternAt c b) : a % 6 = b % 6 := by
  obtain ⟨hi, lo⟩ := gateDecode_inj same
  by_contra differ
  exact different (mod6 a) (mod6 b) (fun eq => differ (congrArg Fin.val eq)) (Prod.ext hi lo)

/-- V5 of R82, from any step to the next. -/
theorem entryFor_rotates {c : Cfg} (rotates : ValidRotation c.table) (a : Nat) :
    ((entryFor c a).hi = (entryFor c (a + 1)).hi ∧ (entryFor c a).lo ≠ (entryFor c (a + 1)).lo) ∨
      ((entryFor c a).lo = (entryFor c (a + 1)).lo ∧ (entryFor c a).hi ≠ (entryFor c (a + 1)).hi) := by
  have next : mod6 (inc6 (mod6 a)) = mod6 (a + 1) := by
    apply Fin.ext
    simp only [mod6_val, inc6]
    omega
  have entry : entryFor c (a + 1) = c.table[mod6 (inc6 (mod6 a))] := by
    simp only [entryFor, next]
  rw [entry]
  exact rotates (mod6 a)

/-! ## An advance (R180) -/

/-- R81: whatever operation advances, it energizes and shows the next entry. -/
theorem gates_of_advance {i : Instr} {s t : State} (mem : i ∈ [Instr.fstep, .fstepLast, .zcadv])
    (performed : exec i s = .next t) : gates t = patternAt s.cfg (s.step.toNat + 1) := by
  have step := exec_advances_step mem performed
  have en : t.en = true := by
    simp only [List.mem_cons, List.not_mem_nil, or_false] at mem
    rcases mem with rfl | rfl | rfl
    · rw [(execFstep_next.mp performed).2]; rfl
    · rw [(execFstepLast_next.mp performed).2]; rfl
    · rw [execZcadv_next.mp performed]; rfl
  rw [gates_eq_patternAt en, exec_keeps_cfg performed, step]
  exact patternAt_congr _ (Nat.mod_mod ..)

/-- Settles O56: V5 keeps one of the two switches and changes the other, on the same side. -/
theorem advanceTurnsOneSwitchOffAndOneOn : Obligations.AdvanceTurnsOneSwitchOffAndOneOn := by
  rintro s t i ⟨differ, -, -, rotation⟩ en mem performed
  have rotates := entryFor_rotates rotation s.step.toNat
  obtain ⟨hi_lo, lo_hi⟩ := no_side_change (differ (mod6 s.step.toNat)) (differ (mod6 (s.step.toNat + 1))) rotates
  rw [gates_of_advance mem performed, gates_eq_patternAt en, patternAt, patternAt, switchCount_gateDecode_and_not,
    switchCount_gateDecode_and_not, highPhases_gateDecode, highPhases_gateDecode, lowPhases_gateDecode,
    lowPhases_gateDecode]
  refine ⟨?_, ?_, fun p => ⟨?_, ?_⟩⟩
  · rcases rotates with ⟨same, other⟩ | ⟨same, other⟩ <;> simp [same, other]
  · rcases rotates with ⟨same, other⟩ | ⟨same, other⟩ <;> simp [same, other.symm]
  · rintro ⟨high, low⟩
    exact lo_hi ((List.mem_singleton.mp low).symm.trans (List.mem_singleton.mp high))
  · rintro ⟨low, high⟩
    exact hi_lo ((List.mem_singleton.mp high).symm.trans (List.mem_singleton.mp low))

/-! ## A revolution (R117) -/

/-- The state that a handler leaves. -/
theorem advances_succ (n : Nat) (s : State) :
    advances (n + 1) s =
      onZeroCrossingEvent (sampleEdge s) :: advances n (onZeroCrossingEvent (sampleEdge s)) := rfl

theorem step_after_zcadv (s : State) :
    (onZeroCrossingEvent (sampleEdge s)).step.toNat = (s.step.toNat + 1) % 6 :=
  exec_advances_step (i := .zcadv) (by decide) (execZcadv_next.mpr rfl)

theorem gates_after_zcadv (s : State) :
    gates (onZeroCrossingEvent (sampleEdge s)) = patternAt s.cfg (s.step.toNat + 1) :=
  gates_of_advance (i := .zcadv) (by decide) (execZcadv_next.mpr rfl)

theorem length_advances (n : Nat) (s : State) : (advances n s).length = n := by
  induction n generalizing s with
  | zero => rfl
  | succ n ih => rw [advances_succ, List.length_cons, ih]

/-- R117: the handlers show the patterns of the steps that follow, in order. -/
theorem gates_advances (n : Nat) (s : State) :
    (advances n s).map gates = (List.range n).map fun k => patternAt s.cfg (s.step.toNat + 1 + k) := by
  induction n generalizing s with
  | zero => rfl
  | succ n ih =>
    have later (k : Nat) : patternAt s.cfg ((s.step.toNat + 1) % 6 + 1 + k) =
        patternAt s.cfg (s.step.toNat + 1 + (k + 1)) := patternAt_congr _ (by omega)
    rw [advances_succ, List.map_cons, ih, gates_after_zcadv, step_after_zcadv, onZeroCrossingEvent_cfg,
      sampleEdge_cfg, List.range_succ_eq_map, List.map_cons, List.map_map]
    simp only [later]
    rfl

/-- R117: `n` handlers increment the step `n` times. -/
theorem getLast_advances (n : Nat) (s : State) :
    ∃ t, (advances (n + 1) s).getLast? = some t ∧ t.step.toNat = (s.step.toNat + (n + 1)) % 6 := by
  induction n generalizing s with
  | zero => exact ⟨_, rfl, step_after_zcadv s⟩
  | succ n ih =>
    obtain ⟨t, last, step⟩ := ih (onZeroCrossingEvent (sampleEdge s))
    refine ⟨t, ?_, ?_⟩
    · rw [advances_succ, advances_succ, List.getLast?_cons_cons, ← advances_succ, last]
    · rw [step, step_after_zcadv]
      omega

/-- The steps `a + 1` to `a + 6` are the six steps, each once, so the patterns there are all different. -/
theorem nodup_revolution {c : Cfg} (valid : ValidTable c.table) (a : Nat) :
    ((List.range 6).map fun k => patternAt c (a + 1 + k)).Nodup := by
  obtain ⟨-, -, different, -⟩ := valid
  refine List.Nodup.map_on (fun x mem_x y mem_y same => ?_) List.nodup_range
  have mod := mod_eq_of_patternAt_eq different same
  rw [List.mem_range] at mem_x mem_y
  omega

/-- Every pattern stands somewhere in a valid table, and a revolution comes past every entry. -/
theorem mem_revolution {c : Cfg} (valid : ValidTable c.table) (a : Nat) {hi lo : Phase} (differ : hi ≠ lo) :
    gateDecode hi lo ∈ (List.range 6).map fun k => patternAt c (a + 1 + k) := by
  have listed : (hi, lo) ∈ c.table.toList.map patternOf :=
    (patterns_perm valid).mem_iff.mpr (mem_drivePatterns.mpr differ)
  obtain ⟨e, mem_e, pattern⟩ := List.mem_map.mp listed
  obtain ⟨j, rfl⟩ := mem_table mem_e
  have address : mod6 (a + 1 + (j + 5 * (a + 1)) % 6) = j := by
    apply Fin.ext
    rw [mod6_val]
    omega
  have comes_past : entryFor c (a + 1 + (j + 5 * (a + 1)) % 6) = c.table[j] := by
    simp only [entryFor, address]
  refine List.mem_map.mpr ⟨(j + 5 * (a + 1)) % 6, List.mem_range.mpr (Nat.mod_lt _ (by decide)), ?_⟩
  obtain ⟨rfl, rfl⟩ : c.table[j].hi = hi ∧ c.table[j].lo = lo := Prod.mk.inj pattern
  rw [patternAt, comes_past]

/-- Settles O55: six handlers show the patterns of six successive steps and end where they began. -/
theorem revolutionAssertsEveryPatternOnce : Obligations.RevolutionAssertsEveryPatternOnce := by
  intro s valid
  rw [gates_advances]
  refine ⟨length_advances 6 s, nodup_revolution valid _, fun hi lo differ => mem_revolution valid _ differ,
    fun isStep => ?_⟩
  obtain ⟨t, last, step⟩ := getLast_advances 5 s
  exact ⟨t, last, BitVec.eq_of_toNat_eq (by omega)⟩

end Sys2Proof.Machine
end

section
/-! PROOFS of the family other, fifth part: the length of the startup ramp (R96 to R98). -/

namespace Sys2Proof.Machine

/-! ## The schedule from any delay (R96, R98) -/

/-- The same configuration with a ramp that starts at another delay: its schedule is what is left of a ramp that has
come down to that delay. -/
def fromDelay (c : Cfg) (d : Nat) : Cfg := { c with delayInit := d }

theorem rampSteps_at_floor {c : Cfg} {d : Nat} (floor : d ≤ c.delayFloor) : rampSteps (fromDelay c d) = 0 :=
  if_neg (Nat.not_lt.mpr floor)

/-- R96's ceiling, above the floor, in one piece. -/
theorem rampSteps_above_floor {c : Cfg} {d : Nat} (dec : 1 ≤ c.delayDec) (above : c.delayFloor < d) :
    rampSteps (fromDelay c d) = (d - c.delayFloor - 1) / c.delayDec + 1 := by
  have regroup : d - c.delayFloor + (c.delayDec - 1) = d - c.delayFloor - 1 + c.delayDec := by omega
  rw [← Nat.add_div_right _ dec, ← regroup]
  exact if_pos above

/-- A forced step uses up one decrement. -/
theorem rampSteps_forced {c : Cfg} {d : Nat} (dec : 1 ≤ c.delayDec) (above : c.delayFloor < d) :
    rampSteps (fromDelay c d) = rampSteps (fromDelay c (d - c.delayDec)) + 1 := by
  rw [rampSteps_above_floor dec above]
  rcases Nat.lt_or_ge c.delayFloor (d - c.delayDec) with above' | floor
  · have regroup : d - c.delayFloor - 1 = d - c.delayDec - c.delayFloor - 1 + c.delayDec := by omega
    rw [rampSteps_above_floor dec above', regroup, Nat.add_div_right _ dec]
  · rw [rampSteps_at_floor floor, Nat.div_eq_of_lt (by omega)]

/-- The delays after the first are those of the ramp that starts one decrement further down. -/
theorem rampDelay_forced (c : Cfg) (d k : Nat) :
    rampDelay (fromDelay c d) (k + 1) = rampDelay (fromDelay c (d - c.delayDec)) k := by
  induction k with
  | zero => exact tsub_eq ..
  | succ k ih =>
    rw [rampDelay, ih]
    rfl

/-- The first wait lasts as long as the initial delay. -/
theorem rampUnits_eq (c : Cfg) (d : Nat) :
    rampUnits (fromDelay c d) =
      d + ((List.range (rampSteps (fromDelay c d))).map fun k => rampDelay (fromDelay c d) (k + 1)).sum := by
  rw [rampUnits, List.range_succ_eq_map, List.map_cons, List.sum_cons, List.map_map]
  rfl

theorem rampUnits_at_floor {c : Cfg} {d : Nat} (floor : d ≤ c.delayFloor) : rampUnits (fromDelay c d) = d := by
  rw [rampUnits_eq, rampSteps_at_floor floor]
  rfl

/-- A forced step leaves the waits of the ramp that starts one decrement further down. -/
theorem rampUnits_forced {c : Cfg} {d : Nat} (dec : 1 ≤ c.delayDec) (above : c.delayFloor < d) :
    rampUnits (fromDelay c d) = d + rampUnits (fromDelay c (d - c.delayDec)) := by
  rw [rampUnits_eq, rampSteps_forced dec above]
  simp only [rampDelay_forced]
  rfl

/-! ## What is left of the ramp in a state -/

/-- The time units that are left: of the current wait, and of the waits after it. -/
def waitsLeft (s : State) : Nat := s.cnt + (rampUnits (fromDelay s.cfg s.dly) - s.dly)

/-- The forced steps that are left before the boundary step. -/
def forcedLeft (s : State) : Nat := rampSteps (fromDelay s.cfg s.dly)

/-- R98: after reset the whole ramp is left. -/
theorem waitsLeft_resetCore (s : State) : waitsLeft (resetCore s) = rampUnits s.cfg := by
  have first : rampUnits s.cfg = s.cfg.delayInit + _ := rampUnits_eq s.cfg s.cfg.delayInit
  have same : fromDelay (resetCore s).cfg (resetCore s).dly = s.cfg := rfl
  rw [waitsLeft, same, resetCore_cnt, resetCore_dly]
  omega

theorem forcedLeft_resetCore (s : State) : forcedLeft (resetCore s) = rampSteps s.cfg := rfl

@[simp] theorem waitsLeft_takeStimulus (s : State) : waitsLeft (takeStimulus s) = waitsLeft s := by
  simp [waitsLeft]

@[simp] theorem forcedLeft_takeStimulus (s : State) : forcedLeft (takeStimulus s) = forcedLeft s := by
  simp [forcedLeft]

@[simp] theorem waitsLeft_sampleEdge (s : State) : waitsLeft (sampleEdge s) = waitsLeft s := rfl

@[simp] theorem forcedLeft_sampleEdge (s : State) : forcedLeft (sampleEdge s) = forcedLeft s := rfl

@[simp] theorem forcedLeft_countDown (s : State) : forcedLeft (countDown s) = forcedLeft s := rfl

/-- R93: WAIT uses up one time unit. -/
theorem waitsLeft_countDown {s : State} (waiting : s.cnt ≠ 0) : waitsLeft s = waitsLeft (countDown s) + 1 := by
  simp only [waitsLeft, countDown_cnt, countDown_cfg, countDown_dly]
  omega

/-- R94: where the wait has run out, FSTEP loads the next one and uses up no time unit. -/
theorem waitsLeft_fstep {s : State} (dec : 1 ≤ s.cfg.delayDec) (tick : s.cnt = 0) (above : s.cfg.delayFloor < s.dly) :
    waitsLeft (loadNextWait (applyEntry s)) = waitsLeft s := by
  have delay : decrementedDelay (applyEntry s) = s.dly - s.cfg.delayDec := tsub_eq ..
  have next := rampUnits_eq s.cfg (s.dly - s.cfg.delayDec)
  simp only [waitsLeft, loadNextWait_cnt, loadNextWait_cfg, loadNextWait_dly, applyEntry_cfg, delay, tick,
    rampUnits_forced dec above]
  omega

/-- R94: FSTEP uses up one forced step. -/
theorem forcedLeft_fstep {s : State} (dec : 1 ≤ s.cfg.delayDec) (above : s.cfg.delayFloor < s.dly) :
    forcedLeft s = forcedLeft (loadNextWait (applyEntry s)) + 1 := by
  have delay : decrementedDelay (applyEntry s) = s.dly - s.cfg.delayDec := tsub_eq ..
  simp only [forcedLeft, loadNextWait_cfg, loadNextWait_dly, applyEntry_cfg, delay]
  exact rampSteps_forced dec above

/-- R91: at the boundary nothing is left. -/
theorem nothing_left_at_boundary {s : State} (tick : s.cnt = 0) (floor : s.dly ≤ s.cfg.delayFloor) :
    waitsLeft s = 0 ∧ forcedLeft s = 0 := by
  refine ⟨?_, rampSteps_at_floor floor⟩
  rw [waitsLeft, tick, rampUnits_at_floor floor, Nat.sub_self]

/-! ## The edges of the ramp -/

theorem decode_of_waiting_edge {s : State} {p : Pins} (edge : nextStimulus s = .edge p) (mode : s.mode = .starting)
    (rst : p.rst = false) (waiting : s.cnt ≠ 0) :
    decode (presentedWord s) = .op (if p.tu then .wait else .hold) := by
  rw [decode_of_starting_edge edge mode rst, decide_eq_false waiting]
  rfl

/-- A state of the ramp with the clock edges that are listed for it, none of them a reset. -/
structure OnRamp (s : State) (l : List Pins) : Prop where
  adm : Admissible s.cfg
  mode : s.mode = .starting
  idle : s.zcPend = false
  listed : s.stimulus = l.map Stimulus.edge
  rst : ∀ p ∈ l, p.rst = false

theorem onRamp_resetCore {s : State} {l : List Pins} (adm : Admissible s.cfg)
    (listed : s.stimulus = l.map Stimulus.edge) (rst : ∀ p ∈ l, p.rst = false) : OnRamp (resetCore s) l :=
  ⟨adm, rfl, rfl, listed, rst⟩

section
variable {s : State} {p : Pins} {l : List Pins}

theorem OnRamp.edge (ramp : OnRamp s (p :: l)) : nextStimulus s = .edge p := by
  obtain ⟨edge, -⟩ := takeStimulus_of_listed_edge ramp.listed
  exact edge

theorem OnRamp.rst_head (ramp : OnRamp s (p :: l)) : p.rst = false := ramp.rst p List.mem_cons_self

/-- What stays on the ramp: a state that has taken the first edge and kept the parameters, the mode and the request. -/
theorem OnRamp.next {t : State} (ramp : OnRamp s (p :: l)) (cfg : t.cfg = s.cfg) (mode : t.mode = s.mode)
    (idle : t.zcPend = s.zcPend) (rest : t.stimulus = (takeStimulus s).stimulus) : OnRamp t l := by
  obtain ⟨-, taken⟩ := takeStimulus_of_listed_edge ramp.listed
  exact ⟨cfg ▸ ramp.adm, mode.trans ramp.mode, idle.trans ramp.idle, by rw [rest, taken],
    fun q mem => ramp.rst q (List.mem_cons_of_mem p mem)⟩

/-- R92: without a time unit nothing is used up. -/
theorem OnRamp.hold (ramp : OnRamp s (p :: l)) (waiting : s.cnt ≠ 0) (tu : p.tu = false) :
    ∃ t, step s = .next t ∧ OnRamp t l ∧ waitsLeft t = waitsLeft s ∧ forcedLeft t = forcedLeft s := by
  have selected := decode_of_waiting_edge ramp.edge ramp.mode ramp.rst_head waiting
  rw [tu] at selected
  refine ⟨_, step_of_edge ramp.edge ramp.adm selected (execHold_next.mpr rfl), ramp.next ?_ ?_ ?_ rfl, ?_, ?_⟩ <;> simp

/-- R93: a WAIT uses up one time unit. -/
theorem OnRamp.wait (ramp : OnRamp s (p :: l)) (waiting : s.cnt ≠ 0) (tu : p.tu = true) :
    ∃ t, decode (presentedWord s) = .op .wait ∧ step s = .next t ∧ OnRamp t l ∧ t.dly = s.dly ∧ t.step = s.step ∧
      waitsLeft s = waitsLeft t + 1 ∧ forcedLeft t = forcedLeft s := by
  have selected := decode_of_waiting_edge ramp.edge ramp.mode ramp.rst_head waiting
  rw [tu] at selected
  have waits := waitsLeft_countDown (s := sampleEdge (takeStimulus s)) (by simpa using waiting)
  rw [waitsLeft_sampleEdge, waitsLeft_takeStimulus] at waits
  refine ⟨_, selected, step_of_edge ramp.edge ramp.adm selected (execWait_next.mpr rfl), ramp.next ?_ ?_ ?_ rfl,
    ?_, ?_, waits, ?_⟩ <;> simp

/-- R94: an FSTEP uses up one forced step and no time unit. -/
theorem OnRamp.fstep (ramp : OnRamp s (p :: l)) (tick : s.cnt = 0) (above : s.cfg.delayFloor < s.dly) :
    ∃ t, decode (presentedWord s) = .op .fstep ∧ step s = .next t ∧ OnRamp t l ∧
      t.dly = s.dly - s.cfg.delayDec ∧ t.step.toNat = (s.step.toNat + 1) % 6 ∧
      waitsLeft t = waitsLeft s ∧ forcedLeft s = forcedLeft t + 1 := by
  have ⟨_, dec, _⟩ := ramp.adm
  have selected := decode_of_tick_above_floor ramp.edge ramp.mode ramp.rst_head tick above
  have performed : exec .fstep (takeStimulus s) = .next (loadNextWait (applyEntry (sampleEdge (takeStimulus s)))) :=
    execFstep_next.mpr ⟨by rw [takeStimulus_mode, ramp.mode], rfl⟩
  have delay : decrementedDelay (applyEntry (sampleEdge (takeStimulus s))) = s.dly - s.cfg.delayDec := by
    simp [decrementedDelay, tsub_eq]
  have advanced := exec_advances_step (by decide) performed
  have waits := waitsLeft_fstep (s := sampleEdge (takeStimulus s)) (by simpa using dec) (by simpa using tick)
    (by simpa using above)
  have forced := forcedLeft_fstep (s := sampleEdge (takeStimulus s)) (by simpa using dec) (by simpa using above)
  rw [takeStimulus_step] at advanced
  rw [waitsLeft_sampleEdge, waitsLeft_takeStimulus] at waits
  rw [forcedLeft_sampleEdge, forcedLeft_takeStimulus] at forced
  refine ⟨_, selected, step_of_edge ramp.edge ramp.adm selected performed, ramp.next ?_ ?_ ?_ rfl, delay, advanced,
    waits, forced⟩ <;> simp

end

/-! ## No run ends early (R98) -/

/-- Each edge uses up at most one wait or one forced step, and the boundary step comes only when none is left. -/
theorem run_stays_on_ramp (l : List Pins) (s : State) (ramp : OnRamp s l)
    (short : l.length ≤ waitsLeft s + forcedLeft s) :
    ∃ t : State, Sys2Proof.core.run l.length s = .next t ∧ t.mode = .starting := by
  induction l generalizing s with
  | nil => exact ⟨s, rfl, ramp.mode⟩
  | cons p l ih =>
    rw [List.length_cons] at short ⊢
    by_cases tick : s.cnt = 0
    · rcases Nat.lt_or_ge s.cfg.delayFloor s.dly with above | floor
      · obtain ⟨t, -, stepped, ramp', -, -, waits, forced⟩ := ramp.fstep tick above
        rw [core_run_succ stepped]
        exact ih t ramp' (by omega)
      · obtain ⟨waits, forced⟩ := nothing_left_at_boundary tick floor
        omega
    · cases tu : p.tu with
      | true =>
        obtain ⟨t, -, stepped, ramp', -, -, waits, forced⟩ := ramp.wait tick tu
        rw [core_run_succ stepped]
        exact ih t ramp' (by omega)
      | false =>
        obtain ⟨t, stepped, ramp', waits, forced⟩ := ramp.hold tick tu
        rw [core_run_succ stepped]
        exact ih t ramp' (by omega)

/-- Settles O59: after reset the waits and forced steps that are left are T and K. -/
theorem rampNeverEndsEarly : Obligations.RampNeverEndsEarly := by
  intro s l adm listed rst short
  rw [← waitsLeft_resetCore, ← forcedLeft_resetCore] at short
  exact run_stays_on_ramp l (resetCore s) (onRamp_resetCore adm listed rst) short

/-! ## The ramp ends on schedule (R96 to R98) -/

/-- How the ramp that is left in `s` ends: in Running, with the delay and the step that its forced steps lead to. -/
structure RampEnd (s t : State) : Prop where
  mode : t.mode = .running
  armed : t.armed = true
  idle : t.zcPend = false
  en : t.en = true
  cnt : t.cnt = 0
  dly : t.dly = rampDelay (fromDelay s.cfg s.dly) (forcedLeft s)
  floor : t.dly ≤ s.cfg.delayFloor
  step : t.step.toNat = (s.step.toNat + (forcedLeft s + 1)) % 6

/-- A WAIT changes nothing that the end depends on. -/
theorem RampEnd.of_wait {s t u : State} (ended : RampEnd t u) (cfg : t.cfg = s.cfg) (dly : t.dly = s.dly)
    (step : t.step = s.step) : RampEnd s u := by
  have forced : forcedLeft t = forcedLeft s := by rw [forcedLeft, forcedLeft, cfg, dly]
  have end_dly := ended.dly
  have end_floor := ended.floor
  have end_step := ended.step
  rw [cfg, dly, forced] at end_dly
  rw [cfg] at end_floor
  rw [step, forced] at end_step
  exact ⟨ended.mode, ended.armed, ended.idle, ended.en, ended.cnt, end_dly, end_floor, end_step⟩

/-- An FSTEP is the first of the forced steps that are left. -/
theorem RampEnd.of_fstep {s t u : State} (ended : RampEnd t u) (cfg : t.cfg = s.cfg)
    (dly : t.dly = s.dly - s.cfg.delayDec) (step : t.step.toNat = (s.step.toNat + 1) % 6)
    (forced : forcedLeft s = forcedLeft t + 1) : RampEnd s u := by
  have end_dly := ended.dly
  have end_floor := ended.floor
  have end_step := ended.step
  rw [cfg, dly, ← rampDelay_forced, ← forced] at end_dly
  rw [cfg] at end_floor
  rw [step] at end_step
  exact ⟨ended.mode, ended.armed, ended.idle, ended.en, ended.cnt, end_dly, end_floor, by omega⟩

/-- R95: the boundary step ends the ramp. -/
theorem OnRamp.fstepLast {s : State} {p : Pins} {l : List Pins} (ramp : OnRamp s (p :: l)) (tick : s.cnt = 0)
    (floor : s.dly ≤ s.cfg.delayFloor) :
    ∃ t, decode (presentedWord s) = .op .fstepLast ∧ step s = .next t ∧ RampEnd s t := by
  have selected := decode_of_tick_at_floor ramp.edge ramp.mode ramp.rst_head tick floor
  have performed : exec .fstepLast (takeStimulus s) =
      .next (transitionToRunning (applyEntry (sampleEdge (takeStimulus s)))) :=
    execFstepLast_next.mpr ⟨by rw [takeStimulus_mode, ramp.mode], rfl⟩
  have advanced := exec_advances_step (by decide) performed
  obtain ⟨-, forced⟩ := nothing_left_at_boundary tick floor
  refine ⟨_, selected, step_of_edge ramp.edge ramp.adm selected performed, rfl, rfl, ?_, rfl, ?_, ?_, ?_, ?_⟩
  · simpa using ramp.idle
  · simpa using tick
  · rw [forced]
    simp [rampDelay, fromDelay]
  · simpa using floor
  · rw [advanced, takeStimulus_step, forced]

/-- How often each operation is left to be performed, with a time unit at every edge. -/
def opsLeft (s : State) : Instr → Nat
  | .wait => waitsLeft s
  | .fstep => forcedLeft s
  | .fstepLast => 1
  | _ => 0

/-- The encoding of a run counts the operation of its first edge, then those of the rest. -/
theorem countOp_selTrace_succ {s t : State} {p : Pins} {j : Instr} (edge : nextStimulus s = .edge p)
    (selected : decode (presentedWord s) = .op j) (stepped : step s = .next t) (i : Instr) (n : Nat) :
    countOp i (selTrace (n + 1) s) = countOp i (selTrace n t) + if j = i then 1 else 0 := by
  have word := presentedWord_of_edge edge
  rw [word] at selected
  have trace : selTrace (n + 1) s = selVector (takeStimulus s) :: selTrace n t := by
    simp only [selTrace, word, stepped]
  simp only [trace, countOp, List.countP_cons, selected, beq_iff_eq, Decoded.op.injEq]

theorem opsLeft_of_wait {s t : State} (waits : waitsLeft s = waitsLeft t + 1) (forced : forcedLeft t = forcedLeft s)
    (i : Instr) : opsLeft s i = opsLeft t i + if .wait = i then 1 else 0 := by
  cases i <;> simp [opsLeft, waits, forced]

theorem opsLeft_of_fstep {s t : State} (waits : waitsLeft t = waitsLeft s) (forced : forcedLeft s = forcedLeft t + 1)
    (i : Instr) : opsLeft s i = opsLeft t i + if .fstep = i then 1 else 0 := by
  cases i <;> simp [opsLeft, waits, forced]

theorem opsLeft_at_boundary {s : State} (waits : waitsLeft s = 0) (forced : forcedLeft s = 0) (i : Instr) :
    opsLeft s i = if .fstepLast = i then 1 else 0 := by
  cases i <;> simp [opsLeft, waits, forced]

/-- With a time unit at every edge, each edge uses up exactly one wait or one forced step, until the boundary step. -/
theorem run_of_ramp (l : List Pins) (s : State) (ramp : OnRamp s l) (strobe : ∀ p ∈ l, p.tu = true)
    (exact_length : l.length = waitsLeft s + forcedLeft s + 1) :
    (∃ t : State, Sys2Proof.core.run l.length s = .next t ∧ RampEnd s t) ∧
      ∀ i, countOp i (selTrace l.length s) = opsLeft s i := by
  induction l generalizing s with
  | nil => simp at exact_length
  | cons p l ih =>
    obtain ⟨tu, strobe_rest⟩ := List.forall_mem_cons.mp strobe
    rw [List.length_cons] at exact_length ⊢
    by_cases tick : s.cnt = 0
    · rcases Nat.lt_or_ge s.cfg.delayFloor s.dly with above | floor
      · obtain ⟨t, selected, stepped, ramp', dly, step, waits, forced⟩ := ramp.fstep tick above
        obtain ⟨⟨u, ran, ended⟩, counts⟩ := ih t ramp' strobe_rest (by omega)
        refine ⟨⟨u, (core_run_succ stepped _).trans ran, ?_⟩, fun i => ?_⟩
        · exact ended.of_fstep (step_keeps_cfg stepped) dly step forced
        · rw [countOp_selTrace_succ ramp.edge selected stepped, counts, opsLeft_of_fstep waits forced]
      · obtain ⟨t, selected, stepped, ended⟩ := ramp.fstepLast tick floor
        obtain ⟨waits, forced⟩ := nothing_left_at_boundary tick floor
        obtain rfl : l = [] := List.eq_nil_of_length_eq_zero (by omega)
        refine ⟨⟨t, core_run_succ stepped 0, ended⟩, fun i => ?_⟩
        rw [countOp_selTrace_succ ramp.edge selected stepped, opsLeft_at_boundary waits forced]
        exact Nat.zero_add _
    · obtain ⟨t, selected, stepped, ramp', dly, step, waits, forced⟩ := ramp.wait tick tu
      obtain ⟨⟨u, ran, ended⟩, counts⟩ := ih t ramp' strobe_rest (by omega)
      refine ⟨⟨u, (core_run_succ stepped _).trans ran, ?_⟩, fun i => ?_⟩
      · exact ended.of_wait (step_keeps_cfg stepped) dly step
      · rw [countOp_selTrace_succ ramp.edge selected stepped, counts, opsLeft_of_wait waits forced]

/-- Settles O58: the ramp that is left after reset is the whole one, T waits, K forced steps and the boundary step. -/
theorem rampReachesRunningOnSchedule : Obligations.RampReachesRunningOnSchedule := by
  intro s l adm listed edges exact_length
  rw [← waitsLeft_resetCore, ← forcedLeft_resetCore] at exact_length
  obtain ⟨⟨t, ran, ended⟩, counts⟩ := run_of_ramp l (resetCore s)
    (onRamp_resetCore adm listed fun p mem => (edges p mem).1) (fun p mem => (edges p mem).2) exact_length
  have ⟨_, _, _, _, _, _, isStep⟩ := adm
  have step := ended.step
  rw [resetCore_step_toNat isStep] at step
  refine ⟨⟨t, ran, ended.mode, ended.armed, ended.idle, ended.en, ended.cnt, ended.dly, ended.floor, step⟩,
    ?_, counts .fstep, counts .fstepLast⟩
  rw [← waitsLeft_resetCore]
  exact counts .wait

end Sys2Proof.Machine
end
